-- ==== Sys2Proof/Word.lean ====
section
/-! DEFINITION. The word types of Deep16: the memory word and register width (00_scope.md R7, R10), the byte
of a memory cell, the 20-bit physical word address (20_memory.md R60) and the 4-bit register number
(10_state.md R20). -/

namespace Sys2Proof

/-- A register or memory word: 16 bits, arithmetic modulo 2^16 (00_scope.md R10). -/
abbrev Word := BitVec 16

/-- Half of a memory word; the unit in which memory is listed (log 1). -/
abbrev Byte := BitVec 8

/-- A physical address: 20 bits, one address per word (20_memory.md R60, R61). -/
abbrev PhysAddr := BitVec 20

/-- A register number: the 4-bit register field of an instruction, and of PSW.SR and PSW.ER
(10_state.md R20, R29). -/
abbrev RegNum := BitVec 4

end Sys2Proof
end

