-- ==== Sys2Proof/Syntax.lean ====
section
/-! DEFINITION. The instructions of Deep16: one constructor per row of spec/opcode_table.json
(30_encoding.md R107), operands as the encoded fields hold them, and the names of the words that encode no
instruction (30_encoding.md R120). -/

namespace Sys2Proof

/-- A segment register, by the 2-bit code of LDS, STS and MVS (10_state.md R27). -/
inductive Seg where
  | cs
  | ds
  | ss
  | es
deriving DecidableEq, Repr

/-- The classes of words that encode no instruction (30_encoding.md R120). -/
inductive Reserved where
  /-- 0xFE30-0xFE3F, 0xFE50-0xFE7F: SOP type4 0011, 0101, 0110, 0111. -/
  | sopType
  /-- 0xFFC0-0xFFDF: ten leading ones. -/
  | tenOnes
  /-- 0xFFE0-0xFFEF: eleven leading ones. -/
  | elevenOnes
  /-- 0xFFF4-0xFFF7: SYS op3 100 to 111. -/
  | sysOp
  /-- 0xFFF8-0xFFFE: thirteen or more leading ones, not all sixteen. -/
  | thirteenOnes
deriving DecidableEq, Repr

/-- The instructions. `rd`, `rs`, `rb`, `rx` are register fields, `seg` a segment field, the other operands
immediate fields of the width of 30_encoding.md R105. -/
inductive Instr where
  /-- LDI imm15 (40_data_movement.md R130). -/
  | ldi (imm : BitVec 15)
  /-- LD Rd, Rb, offset5 (44_memory_access.md R214). -/
  | ld (rd rb : RegNum) (off : BitVec 5)
  /-- ST Rd, Rb, offset5 (44_memory_access.md R215). -/
  | st (rd rb : RegNum) (off : BitVec 5)
  /-- ADD Rd, Rs (41_alu.md R154). -/
  | addR (rd rs : RegNum)
  /-- ADD Rd, imm4 (41_alu.md R154). -/
  | addI (rd : RegNum) (imm : BitVec 4)
  /-- ANW Rd, Rs (41_alu.md R155). -/
  | anwR (rd rs : RegNum)
  /-- ANW Rd, imm4 (41_alu.md R155). -/
  | anwI (rd : RegNum) (imm : BitVec 4)
  /-- SUB Rd, Rs (41_alu.md R156). -/
  | subR (rd rs : RegNum)
  /-- SUB Rd, imm4 (41_alu.md R156). -/
  | subI (rd : RegNum) (imm : BitVec 4)
  /-- CMP Rd, Rs (41_alu.md R157). -/
  | cmpR (rd rs : RegNum)
  /-- CMP Rd, imm4 (41_alu.md R157). -/
  | cmpI (rd : RegNum) (imm : BitVec 4)
  /-- AND Rd, Rs (41_alu.md R158). -/
  | andR (rd rs : RegNum)
  /-- AND Rd, imm4 (41_alu.md R158). -/
  | andI (rd : RegNum) (imm : BitVec 4)
  /-- TST Rd, Rs (41_alu.md R159). -/
  | tstR (rd rs : RegNum)
  /-- TST Rd, imm4 (41_alu.md R159). -/
  | tstI (rd : RegNum) (imm : BitVec 4)
  /-- OR Rd, Rs (41_alu.md R160). -/
  | orR (rd rs : RegNum)
  /-- OR Rd, imm4 (41_alu.md R160). -/
  | orI (rd : RegNum) (imm : BitVec 4)
  /-- ONW Rd, Rs (41_alu.md R161). -/
  | onwR (rd rs : RegNum)
  /-- ONW Rd, imm4 (41_alu.md R161). -/
  | onwI (rd : RegNum) (imm : BitVec 4)
  /-- XOR Rd, Rs (41_alu.md R162). -/
  | xorR (rd rs : RegNum)
  /-- XOR Rd, imm4 (41_alu.md R162). -/
  | xorI (rd : RegNum) (imm : BitVec 4)
  /-- TBC Rd, Rs (41_alu.md R163). -/
  | tbcR (rd rs : RegNum)
  /-- TBC Rd, imm4 (41_alu.md R163). -/
  | tbcI (rd : RegNum) (imm : BitVec 4)
  /-- MUL Rd, Rs (41_alu.md R168). -/
  | mul (rd rs : RegNum)
  /-- MUL32 Rd, Rs (41_alu.md R170). -/
  | mul32 (rd rs : RegNum)
  /-- MNW Rd, Rs (41_alu.md R169). -/
  | mnw (rd rs : RegNum)
  /-- MNW32 Rd, Rs (41_alu.md R171). -/
  | mnw32 (rd rs : RegNum)
  /-- DIV Rd, Rs (41_alu.md R172). -/
  | div (rd rs : RegNum)
  /-- DIV32 Rd, Rs (41_alu.md R174). -/
  | div32 (rd rs : RegNum)
  /-- DNW Rd, Rs (41_alu.md R173). -/
  | dnw (rd rs : RegNum)
  /-- DNW32 Rd, Rs (41_alu.md R175). -/
  | dnw32 (rd rs : RegNum)
  /-- SL Rd, count3 (42_shift.md R183). -/
  | sl (rd : RegNum) (count : BitVec 3)
  /-- SLC Rd, count3 (42_shift.md R184). -/
  | slc (rd : RegNum) (count : BitVec 3)
  /-- SR Rd, count3 (42_shift.md R185). -/
  | sr (rd : RegNum) (count : BitVec 3)
  /-- SRC Rd, count3 (42_shift.md R186). -/
  | src (rd : RegNum) (count : BitVec 3)
  /-- SRA Rd, count3 (42_shift.md R187). -/
  | sra (rd : RegNum) (count : BitVec 3)
  /-- SAC Rd, count3 (42_shift.md R188). -/
  | sac (rd : RegNum) (count : BitVec 3)
  /-- ROR Rd, count3 (42_shift.md R189). -/
  | ror (rd : RegNum) (count : BitVec 3)
  /-- ROC Rd, count3 (42_shift.md R190). -/
  | roc (rd : RegNum) (count : BitVec 3)
  /-- JZ target9 (45_control_flow.md R232). -/
  | jz (target : BitVec 9)
  /-- JNZ target9 (45_control_flow.md R233). -/
  | jnz (target : BitVec 9)
  /-- JC target9 (45_control_flow.md R234). -/
  | jc (target : BitVec 9)
  /-- JNC target9 (45_control_flow.md R235). -/
  | jnc (target : BitVec 9)
  /-- JN target9 (45_control_flow.md R236). -/
  | jn (target : BitVec 9)
  /-- JNN target9 (45_control_flow.md R237). -/
  | jnn (target : BitVec 9)
  /-- JO target9 (45_control_flow.md R238). -/
  | jo (target : BitVec 9)
  /-- JNO target9 (45_control_flow.md R239). -/
  | jno (target : BitVec 9)
  /-- LDS Rd, seg, Rs (44_memory_access.md R216). -/
  | lds (rd : RegNum) (seg : Seg) (rs : RegNum)
  /-- STS Rd, seg, Rs (44_memory_access.md R217). -/
  | sts (rd : RegNum) (seg : Seg) (rs : RegNum)
  /-- MOV Rd, Rs, imm2 with imm2 in 0..2 (40_data_movement.md R132 to R134). -/
  | mov (rd rs : RegNum) (imm : BitVec 2)
  /-- MOV Rd, Rs, 3: the architectural register read (40_data_movement.md R135). -/
  | amv (rd rs : RegNum)
  /-- LSI Rd, imm5 (40_data_movement.md R131). -/
  | lsi (rd : RegNum) (imm : BitVec 5)
  /-- SWB Rx (43_single_operand.md R201). -/
  | swb (rx : RegNum)
  /-- INV Rx (43_single_operand.md R202). -/
  | inv (rx : RegNum)
  /-- NEG Rx (43_single_operand.md R203). -/
  | neg (rx : RegNum)
  /-- JML Rx (45_control_flow.md R240). -/
  | jml (rx : RegNum)
  /-- SRS Rx (46_psw_ops.md R252). -/
  | srs (rx : RegNum)
  /-- SRD Rx (46_psw_ops.md R253). -/
  | srd (rx : RegNum)
  /-- ERS Rx (46_psw_ops.md R254). -/
  | ers (rx : RegNum)
  /-- ERD Rx (46_psw_ops.md R255). -/
  | erd (rx : RegNum)
  /-- SET imm4 (46_psw_ops.md R257). -/
  | set (imm : BitVec 4)
  /-- CLR imm4 (46_psw_ops.md R258). -/
  | clr (imm : BitVec 4)
  /-- SET2 imm4 (46_psw_ops.md R259). -/
  | set2 (imm : BitVec 4)
  /-- CLR2 imm4 (46_psw_ops.md R260). -/
  | clr2 (imm : BitVec 4)
  /-- MVS Rd, Sx: read a segment register (40_data_movement.md R136). -/
  | mvsFrom (rd : RegNum) (seg : Seg)
  /-- MVS Sx, Rd: write a segment register (40_data_movement.md R137). -/
  | mvsTo (seg : Seg) (rd : RegNum)
  /-- SMV Rd, APC (40_data_movement.md R138). -/
  | smvApc (rd : RegNum)
  /-- SMV Rd, APSW (40_data_movement.md R139). -/
  | smvApsw (rd : RegNum)
  /-- SMV Rd, PSW (40_data_movement.md R140). -/
  | smvPsw (rd : RegNum)
  /-- SMV Rd, ACS (40_data_movement.md R141). -/
  | smvAcs (rd : RegNum)
  /-- NOP (47_system.md R271). -/
  | nop
  /-- FSH (47_system.md R272). -/
  | fsh
  /-- SWI (47_system.md R273). -/
  | swi
  /-- RETI (47_system.md R274). -/
  | reti
  /-- HLT (47_system.md R276). -/
  | hlt
deriving DecidableEq, Repr

end Sys2Proof
end

