-- ==== Sys2Proof/WellFormed.lean ====
section
/-! DEFINITION. Which terms of Instr are instructions of the machine. The operand types carry the widths of
30_encoding.md R105, so one check is left: MOV with imm2 = 3 is the AMV row (30_encoding.md R98, R107). -/

namespace Sys2Proof

/-- The term is an instruction of the table: MOV's immediate is 0, 1 or 2 (40_data_movement.md R132). -/
def Instr.wellFormed : Instr → Bool
  | .mov _ _ imm => imm != 3#2
  | _ => true

end Sys2Proof
end

