-- ==== Sys2Proof/Decode.lean ====
section
/-! DEFINITION. The decoder, total on 16-bit words and refusing the words of 30_encoding.md R120 by name, and
after it the encoder, written from the same format tables (30_encoding.md R91 to R104). -/

namespace Sys2Proof

/-- `v[lo + len - 1 : lo]` of an instruction word (00_scope.md R9). -/
def field (w : Word) (lo len : Nat) : BitVec len := w.extractLsb' lo len

/-- The segment register of a 2-bit code (10_state.md R27). -/
def Seg.ofCode (c : BitVec 2) : Seg :=
  match c.toNat with
  | 0 => .cs
  | 1 => .ds
  | 2 => .ss
  | _ => .es

/-- The 2-bit code of a segment register (10_state.md R27). -/
def Seg.code : Seg → BitVec 2
  | .cs => 0#2
  | .ds => 1#2
  | .ss => 2#2
  | .es => 3#2

/-- LD/ST, opcode 10 (30_encoding.md R93). -/
def decodeLdSt (w : Word) : Instr :=
  match (field w 13 1).toNat with
  | 0 => .ld (field w 9 4) (field w 5 4) (field w 0 5)
  | _ => .st (field w 9 4) (field w 5 4) (field w 0 5)

/-- The shifts: ALU2 with op3 = 111 (30_encoding.md R95). -/
def decodeShift (w : Word) : Instr :=
  match (field w 3 3).toNat with
  | 0 => .sl (field w 6 4) (field w 0 3)
  | 1 => .slc (field w 6 4) (field w 0 3)
  | 2 => .sr (field w 6 4) (field w 0 3)
  | 3 => .src (field w 6 4) (field w 0 3)
  | 4 => .sra (field w 6 4) (field w 0 3)
  | 5 => .sac (field w 6 4) (field w 0 3)
  | 6 => .ror (field w 6 4) (field w 0 3)
  | _ => .roc (field w 6 4) (field w 0 3)

/-- ALU2, opcode 110; bits 5 and 4 are w and i (30_encoding.md R94). -/
def decodeAlu2 (w : Word) : Instr :=
  let rd := field w 6 4
  let x := field w 0 4
  match (field w 10 3).toNat, (field w 4 2).toNat with
  | 0, 0 => .anwR rd x
  | 0, 1 => .anwI rd x
  | 0, 2 => .addR rd x
  | 0, _ => .addI rd x
  | 1, 0 => .cmpR rd x
  | 1, 1 => .cmpI rd x
  | 1, 2 => .subR rd x
  | 1, _ => .subI rd x
  | 2, 0 => .tstR rd x
  | 2, 1 => .tstI rd x
  | 2, 2 => .andR rd x
  | 2, _ => .andI rd x
  | 3, 0 => .onwR rd x
  | 3, 1 => .onwI rd x
  | 3, 2 => .orR rd x
  | 3, _ => .orI rd x
  | 4, 0 => .tbcR rd x
  | 4, 1 => .tbcI rd x
  | 4, 2 => .xorR rd x
  | 4, _ => .xorI rd x
  | 5, 0 => .mnw rd x
  | 5, 1 => .mnw32 rd x
  | 5, 2 => .mul rd x
  | 5, _ => .mul32 rd x
  | 6, 0 => .dnw rd x
  | 6, 1 => .dnw32 rd x
  | 6, 2 => .div rd x
  | 6, _ => .div32 rd x
  | _, _ => decodeShift w

/-- JMP, opcode 1110 (30_encoding.md R96). -/
def decodeJmp (w : Word) : Instr :=
  match (field w 9 3).toNat with
  | 0 => .jz (field w 0 9)
  | 1 => .jnz (field w 0 9)
  | 2 => .jc (field w 0 9)
  | 3 => .jnc (field w 0 9)
  | 4 => .jn (field w 0 9)
  | 5 => .jnn (field w 0 9)
  | 6 => .jo (field w 0 9)
  | _ => .jno (field w 0 9)

/-- LDS/STS, opcode 11110 (30_encoding.md R97). -/
def decodeLdsSts (w : Word) : Instr :=
  match (field w 10 1).toNat with
  | 0 => .lds (field w 4 4) (Seg.ofCode (field w 8 2)) (field w 0 4)
  | _ => .sts (field w 4 4) (Seg.ofCode (field w 8 2)) (field w 0 4)

/-- MOV, opcode 111110; imm2 = 3 is the architectural read (30_encoding.md R98). -/
def decodeMov (w : Word) : Instr :=
  match (field w 0 2).toNat with
  | 3 => .amv (field w 6 4) (field w 2 4)
  | _ => .mov (field w 6 4) (field w 2 4) (field w 0 2)

/-- SOP, opcode 11111110 (30_encoding.md R100). -/
def decodeSop (w : Word) : Except Reserved Instr :=
  let x := field w 0 4
  match (field w 4 4).toNat with
  | 0 => .ok (.swb x)
  | 1 => .ok (.inv x)
  | 2 => .ok (.neg x)
  | 3 => .error .sopType
  | 4 => .ok (.jml x)
  | 5 => .error .sopType
  | 6 => .error .sopType
  | 7 => .error .sopType
  | 8 => .ok (.srs x)
  | 9 => .ok (.srd x)
  | 10 => .ok (.ers x)
  | 11 => .ok (.erd x)
  | 12 => .ok (.set x)
  | 13 => .ok (.clr x)
  | 14 => .ok (.set2 x)
  | _ => .ok (.clr2 x)

/-- MVS, opcode 111111110 (30_encoding.md R101). -/
def decodeMvs (w : Word) : Instr :=
  match (field w 6 1).toNat with
  | 0 => .mvsFrom (field w 2 4) (Seg.ofCode (field w 0 2))
  | _ => .mvsTo (Seg.ofCode (field w 0 2)) (field w 2 4)

/-- SMV, opcode 1111111110 (30_encoding.md R102). -/
def decodeSmv (w : Word) : Instr :=
  match (field w 4 2).toNat with
  | 0 => .smvApc (field w 0 4)
  | 1 => .smvApsw (field w 0 4)
  | 2 => .smvPsw (field w 0 4)
  | _ => .smvAcs (field w 0 4)

/-- SYS, opcode 1111111111110 (30_encoding.md R103). -/
def decodeSys (w : Word) : Except Reserved Instr :=
  match (field w 0 3).toNat with
  | 0 => .ok .nop
  | 1 => .ok .fsh
  | 2 => .ok .swi
  | 3 => .ok .reti
  | _ => .error .sysOp

/-- How many one-bits stand before the first zero bit, counted from bit `n - 1` down (30_encoding.md R91). -/
def leadingOnes (w : Word) : Nat → Nat
  | 0 => 0
  | n + 1 => if w.getLsbD n then leadingOnes w n + 1 else 0

/-- Decode one instruction word by its number of leading ones (30_encoding.md R91). -/
def decode (w : Word) : Except Reserved Instr :=
  match leadingOnes w 16 with
  | 0 => .ok (.ldi (field w 0 15))
  | 1 => .ok (decodeLdSt w)
  | 2 => .ok (decodeAlu2 w)
  | 3 => .ok (decodeJmp w)
  | 4 => .ok (decodeLdsSts w)
  | 5 => .ok (decodeMov w)
  | 6 => .ok (.lsi (field w 5 4) (field w 0 5))
  | 7 => decodeSop w
  | 8 => .ok (decodeMvs w)
  | 9 => .ok (decodeSmv w)
  | 10 => .error .tenOnes
  | 11 => .error .elevenOnes
  | 12 => decodeSys w
  | 16 => .ok .hlt
  | _ => .error .thirteenOnes

/-- The instruction the decoder reads from a row's bits: one 16-bit word, the whole of every row
(30_encoding.md R90). -/
def decodeTableWord (nbits w : Nat) : Option Instr :=
  (decode (BitVec.ofNat 16 (w % 2 ^ nbits))).toOption

/-- The LD/ST format (30_encoding.md R93). -/
def encodeLdSt (d : BitVec 1) (rd rb : RegNum) (off : BitVec 5) : Word :=
  0b10#2 ++ d ++ rd ++ rb ++ off

/-- The ALU2 format (30_encoding.md R94). -/
def encodeAlu2 (op : BitVec 3) (rd : RegNum) (wi : BitVec 2) (x : BitVec 4) : Word :=
  0b110#3 ++ op ++ rd ++ wi ++ x

/-- The shift format (30_encoding.md R95). -/
def encodeShift (rd : RegNum) (type : BitVec 3) (count : BitVec 3) : Word :=
  0b110#3 ++ 0b111#3 ++ rd ++ type ++ count

/-- The JMP format (30_encoding.md R96). -/
def encodeJmp (type : BitVec 3) (target : BitVec 9) : Word :=
  0b1110#4 ++ type ++ target

/-- The LDS/STS format (30_encoding.md R97). -/
def encodeLdsSts (d : BitVec 1) (seg : Seg) (rd rs : RegNum) : Word :=
  0b11110#5 ++ d ++ seg.code ++ rd ++ rs

/-- The MOV format (30_encoding.md R98). -/
def encodeMov (rd rs : RegNum) (imm : BitVec 2) : Word :=
  0b111110#6 ++ rd ++ rs ++ imm

/-- The SOP format (30_encoding.md R100). -/
def encodeSop (type : BitVec 4) (x : BitVec 4) : Word :=
  0b11111110#8 ++ type ++ x

/-- The MVS format (30_encoding.md R101). -/
def encodeMvs (d : BitVec 1) (rd : RegNum) (seg : Seg) : Word :=
  0b111111110#9 ++ d ++ rd ++ seg.code

/-- The SMV format (30_encoding.md R102). -/
def encodeSmv (src : BitVec 2) (rd : RegNum) : Word :=
  0b1111111110#10 ++ src ++ rd

/-- The SYS format (30_encoding.md R103). -/
def encodeSys (op : BitVec 3) : Word :=
  0b1111111111110#13 ++ op

/-- The word of an instruction (30_encoding.md R107). -/
def encode : Instr → Word
  | .ldi imm => 0b0#1 ++ imm
  | .ld rd rb off => encodeLdSt 0#1 rd rb off
  | .st rd rb off => encodeLdSt 1#1 rd rb off
  | .addR rd rs => encodeAlu2 0b000#3 rd 0b10#2 rs
  | .addI rd imm => encodeAlu2 0b000#3 rd 0b11#2 imm
  | .anwR rd rs => encodeAlu2 0b000#3 rd 0b00#2 rs
  | .anwI rd imm => encodeAlu2 0b000#3 rd 0b01#2 imm
  | .subR rd rs => encodeAlu2 0b001#3 rd 0b10#2 rs
  | .subI rd imm => encodeAlu2 0b001#3 rd 0b11#2 imm
  | .cmpR rd rs => encodeAlu2 0b001#3 rd 0b00#2 rs
  | .cmpI rd imm => encodeAlu2 0b001#3 rd 0b01#2 imm
  | .andR rd rs => encodeAlu2 0b010#3 rd 0b10#2 rs
  | .andI rd imm => encodeAlu2 0b010#3 rd 0b11#2 imm
  | .tstR rd rs => encodeAlu2 0b010#3 rd 0b00#2 rs
  | .tstI rd imm => encodeAlu2 0b010#3 rd 0b01#2 imm
  | .orR rd rs => encodeAlu2 0b011#3 rd 0b10#2 rs
  | .orI rd imm => encodeAlu2 0b011#3 rd 0b11#2 imm
  | .onwR rd rs => encodeAlu2 0b011#3 rd 0b00#2 rs
  | .onwI rd imm => encodeAlu2 0b011#3 rd 0b01#2 imm
  | .xorR rd rs => encodeAlu2 0b100#3 rd 0b10#2 rs
  | .xorI rd imm => encodeAlu2 0b100#3 rd 0b11#2 imm
  | .tbcR rd rs => encodeAlu2 0b100#3 rd 0b00#2 rs
  | .tbcI rd imm => encodeAlu2 0b100#3 rd 0b01#2 imm
  | .mul rd rs => encodeAlu2 0b101#3 rd 0b10#2 rs
  | .mul32 rd rs => encodeAlu2 0b101#3 rd 0b11#2 rs
  | .mnw rd rs => encodeAlu2 0b101#3 rd 0b00#2 rs
  | .mnw32 rd rs => encodeAlu2 0b101#3 rd 0b01#2 rs
  | .div rd rs => encodeAlu2 0b110#3 rd 0b10#2 rs
  | .div32 rd rs => encodeAlu2 0b110#3 rd 0b11#2 rs
  | .dnw rd rs => encodeAlu2 0b110#3 rd 0b00#2 rs
  | .dnw32 rd rs => encodeAlu2 0b110#3 rd 0b01#2 rs
  | .sl rd count => encodeShift rd 0b000#3 count
  | .slc rd count => encodeShift rd 0b001#3 count
  | .sr rd count => encodeShift rd 0b010#3 count
  | .src rd count => encodeShift rd 0b011#3 count
  | .sra rd count => encodeShift rd 0b100#3 count
  | .sac rd count => encodeShift rd 0b101#3 count
  | .ror rd count => encodeShift rd 0b110#3 count
  | .roc rd count => encodeShift rd 0b111#3 count
  | .jz target => encodeJmp 0b000#3 target
  | .jnz target => encodeJmp 0b001#3 target
  | .jc target => encodeJmp 0b010#3 target
  | .jnc target => encodeJmp 0b011#3 target
  | .jn target => encodeJmp 0b100#3 target
  | .jnn target => encodeJmp 0b101#3 target
  | .jo target => encodeJmp 0b110#3 target
  | .jno target => encodeJmp 0b111#3 target
  | .lds rd seg rs => encodeLdsSts 0#1 seg rd rs
  | .sts rd seg rs => encodeLdsSts 1#1 seg rd rs
  | .mov rd rs imm => encodeMov rd rs imm
  | .amv rd rs => encodeMov rd rs 0b11#2
  | .lsi rd imm => 0b1111110#7 ++ rd ++ imm
  | .swb rx => encodeSop 0b0000#4 rx
  | .inv rx => encodeSop 0b0001#4 rx
  | .neg rx => encodeSop 0b0010#4 rx
  | .jml rx => encodeSop 0b0100#4 rx
  | .srs rx => encodeSop 0b1000#4 rx
  | .srd rx => encodeSop 0b1001#4 rx
  | .ers rx => encodeSop 0b1010#4 rx
  | .erd rx => encodeSop 0b1011#4 rx
  | .set imm => encodeSop 0b1100#4 imm
  | .clr imm => encodeSop 0b1101#4 imm
  | .set2 imm => encodeSop 0b1110#4 imm
  | .clr2 imm => encodeSop 0b1111#4 imm
  | .mvsFrom rd seg => encodeMvs 0#1 rd seg
  | .mvsTo seg rd => encodeMvs 1#1 rd seg
  | .smvApc rd => encodeSmv 0b00#2 rd
  | .smvApsw rd => encodeSmv 0b01#2 rd
  | .smvPsw rd => encodeSmv 0b10#2 rd
  | .smvAcs rd => encodeSmv 0b11#2 rd
  | .nop => encodeSys 0b000#3
  | .fsh => encodeSys 0b001#3
  | .swi => encodeSys 0b010#3
  | .reti => encodeSys 0b011#3
  | .hlt => 0xFFFF#16

end Sys2Proof
end

