-- ==== Sys2Proof/Config.lean ====
section
/-! DEFINITION. What an implementation fixes (00_scope.md R8): the parameters, as plain data held in State, and
the free values of the spec's draws, as opaque constants nothing can evaluate (log 5). -/

namespace Sys2Proof

/-- The sense of C after SUB and CMP (41_alu.md R153). -/
inductive SubCarry where
  /-- C = 1 when a borrow occurs; the spec's default. -/
  | borrow
  /-- C = 1 when no borrow occurs. -/
  | notBorrow
deriving DecidableEq, Repr

/-- Where the old carry enters SRC, SAC and ROC (42_shift.md R181). -/
inductive CarryInPlace where
  /-- As D0 prints it, at bit 15 - count; the spec's default. -/
  | printed
  /-- At bit 16 - count, the vacated top bit: the usual rotate through carry. -/
  | usual
deriving DecidableEq, Repr

/-- The bit that leaves a shift by a count of at least 1, the reading of "C = MSB" for a left and "C = LSB" for a
right shift (42_shift.md R181). -/
inductive CarryOut where
  /-- The last bit shifted out; the spec's default. -/
  | lastOut
  /-- Bit 15, for a right shift bit 0, of the operand whatever the count. -/
  | edge
deriving DecidableEq, Repr

/-- The flags a count of 0 writes (42_shift.md R181). -/
inductive ZeroCountFlags where
  /-- N and Z; C unchanged; the spec's default. -/
  | carryKept
  /-- N, Z and C = 0. -/
  | carryCleared
  /-- N, Z and C = MSB or LSB of the operand, as for `CarryOut.edge`. -/
  | carryEdge
  /-- None. -/
  | flagsKept
deriving DecidableEq, Repr

/-- The open points of the shift family (42_shift.md R181, 93_implementation_defined.md section 3, log 11). -/
structure ShiftNumerics where
  /-- The carry-in place of SRC, SAC and ROC. -/
  carryInPlace : CarryInPlace
  /-- The carry-out for a count of at least 1. -/
  carryOut : CarryOut
  /-- The flags of a count of 0. -/
  zeroFlags : ZeroCountFlags
  /-- Whether SRC, SAC and ROC apply the carry-in term at a count of 0; the spec's default is no. -/
  zeroCarryIn : Bool
  /-- Whether ROR and ROC write C as a right shift does; the spec's default is no (42_shift.md R182). -/
  rotateCarry : Bool
deriving DecidableEq, Repr

/-- The second register of a dual pair when PSW.SR or PSW.ER is odd (44_memory_access.md R213). -/
inductive DualPairOdd where
  /-- An access that depends on it is refused; the spec's default. -/
  | refuse
  /-- The pair is n and n - 1. -/
  | xorOne
  /-- The pair is n and (n + 1) mod 16. -/
  | plusOne
deriving DecidableEq, Repr

/-- The open parameters of the spec (00_scope.md R8), fixed for a machine: no step writes them (logs 8 to 14). -/
structure Params where
  /-- The constant of a conditional jump's target (45_control_flow.md R231). -/
  jumpBase : Word
  /-- Whether MUL32, DIV and DIV32 treat their operands as signed (41_alu.md R166). -/
  mulDivSigned : Bool
  /-- The sense of C after SUB and CMP (41_alu.md R153). -/
  subCarry : SubCarry
  /-- The carry-in placement, the carry-out and the count of 0 of the shift family (42_shift.md R181). -/
  shiftNumerics : ShiftNumerics
  /-- The dual pair of an odd register number (44_memory_access.md R213). -/
  dualPairOdd : DualPairOdd
  /-- How many preceding instructions' register writes MOV imm2 = 3 may miss (40_data_movement.md R135). -/
  archReadWindow : Nat
  /-- Whether MOV imm2 = 3 adds 3 to a general register (40_data_movement.md R135). -/
  amvAddsThree : Bool
  /-- How many following fetches may miss a store (20_memory.md R78). -/
  fetchWindow : Nat
deriving DecidableEq, Repr

/-- The signedness of the reset machine: no source says which and the spec gives no default
(41_alu.md R166, log 9). -/
opaque Config.mulDivSigned : Bool

/-- The n-th free word: the spec's `draw` (00_scope.md R11, log 5). -/
opaque Config.freeWord : Nat → Word

/-- The n-th free bit (log 5). -/
opaque Config.freeBit : Nat → Bool

/-- The n-th free choice among values the spec lists (log 5). -/
opaque Config.freeChoice : Nat → Nat

end Sys2Proof
end

