-- ==== Sys2Proof/Machine/Flags.lean ====
section
/-! DEFINITION. The PSW's fields (10_state.md R29) and every result and flag computation of the ALU classes
(41_alu.md, 42_shift.md, 43_single_operand.md), as functions of the operands and the PSW. -/

namespace Sys2Proof.Machine

/-! ## The PSW word -/

/-- N, bit 0 (10_state.md R29). -/
def pswN (p : Word) : Bool := p.getLsbD 0

/-- Z, bit 1 (10_state.md R29). -/
def pswZ (p : Word) : Bool := p.getLsbD 1

/-- V, bit 2 (10_state.md R29). -/
def pswV (p : Word) : Bool := p.getLsbD 2

/-- C, bit 3 (10_state.md R29). -/
def pswC (p : Word) : Bool := p.getLsbD 3

/-- I, bit 4 (10_state.md R29). -/
def pswI (p : Word) : Bool := p.getLsbD 4

/-- S, bit 5 (10_state.md R29). -/
def pswS (p : Word) : Bool := p.getLsbD 5

/-- SR, bits 9:6 (10_state.md R29). -/
def pswSR (p : Word) : RegNum := p.extractLsb' 6 4

/-- The DS bit, bit 10: dual registers for the stack segment (10_state.md R29). -/
def pswDS (p : Word) : Bool := p.getLsbD 10

/-- ER, bits 14:11 (10_state.md R29). -/
def pswER (p : Word) : RegNum := p.extractLsb' 11 4

/-- DE, bit 15: dual registers for the extra segment (10_state.md R29). -/
def pswDE (p : Word) : Bool := p.getLsbD 15

/-- The PSW with bit `i` written and the others left (46_psw_ops.md R256). -/
def pswSet (p : Word) (i : Nat) (b : Bool) : Word :=
  if b then p ||| BitVec.twoPow 16 i else p &&& ~~~ BitVec.twoPow 16 i

/-- The PSW with a 4-bit selector at `lo` and the dual bit above it written (46_psw_ops.md R250). -/
def pswSelect (p : Word) (lo : Nat) (r : RegNum) (dual : Bool) : Word :=
  pswSet (pswSet (pswSet (pswSet (pswSet p lo (r.getLsbD 0)) (lo + 1) (r.getLsbD 1)) (lo + 2) (r.getLsbD 2))
    (lo + 3) (r.getLsbD 3)) (lo + 4) dual

/-- N and Z of a 16-bit result (41_alu.md R152). -/
def pswSetNZ (p r : Word) : Word := pswSet (pswSet p 0 r.msb) 1 (r == 0)

/-! ## Two-operand ALU -/

/-- What an ALU operation computes: the result and the PSW after it (41_alu.md R150). -/
structure AluOut where
  value : Word
  psw : Word
deriving DecidableEq, Repr

/-- C of ADD: the carry out of bit 15 (41_alu.md R153). -/
def addCarry (a b : Word) : Bool := decide (65535 < a.toNat + b.toNat)

/-- V of ADD: operands of one sign, result of the other (41_alu.md R153). -/
def addOverflow (a b : Word) : Bool := a.msb == b.msb && (a + b).msb != a.msb

/-- C of SUB, in the sense the parameter `SubCarry` names (41_alu.md R153, log 10). -/
def subCarry (c : SubCarry) (a b : Word) : Bool :=
  match c with
  | .borrow => decide (a.toNat < b.toNat)
  | .notBorrow => decide (b.toNat ≤ a.toNat)

/-- V of SUB: operands of different sign, result sign not the minuend's (41_alu.md R153). -/
def subOverflow (a b : Word) : Bool := a.msb != b.msb && (a - b).msb != a.msb

/-- ADD, ANW (41_alu.md R154). -/
def addOut (_ : Params) (p a b : Word) : AluOut :=
  ⟨a + b, pswSet (pswSet (pswSetNZ p (a + b)) 2 (addOverflow a b)) 3 (addCarry a b)⟩

/-- SUB, CMP (41_alu.md R156). -/
def subOut (cfg : Params) (p a b : Word) : AluOut :=
  ⟨a - b, pswSet (pswSet (pswSetNZ p (a - b)) 2 (subOverflow a b)) 3 (subCarry cfg.subCarry a b)⟩

/-- AND, TST (41_alu.md R158). -/
def andOut (_ : Params) (p a b : Word) : AluOut := ⟨a &&& b, pswSetNZ p (a &&& b)⟩

/-- OR, ONW (41_alu.md R160). -/
def orOut (_ : Params) (p a b : Word) : AluOut := ⟨a ||| b, pswSetNZ p (a ||| b)⟩

/-- XOR, TBC (41_alu.md R162). -/
def xorOut (_ : Params) (p a b : Word) : AluOut := ⟨a ^^^ b, pswSetNZ p (a ^^^ b)⟩

/-- MUL, MNW: the low 16 bits of the product (41_alu.md R168). -/
def mulOut (_ : Params) (p a b : Word) : AluOut := ⟨a * b, pswSetNZ p (a * b)⟩

/-- The 32-bit product in the reading `MulDivSigned` names (41_alu.md R166, log 9). -/
def product (signed : Bool) (a b : Word) : BitVec 32 :=
  if signed then BitVec.ofInt 32 (a.toInt * b.toInt) else BitVec.ofNat 32 (a.toNat * b.toNat)

/-- N and Z of a 32-bit product (41_alu.md R170). -/
def pswSetNZ32 (p : Word) (r : BitVec 32) : Word := pswSet (pswSet p 0 r.msb) 1 (r == 0)

/-- The quotient for a divisor other than 0, truncated toward zero when signed (41_alu.md R166). -/
def quotient (signed : Bool) (a b : Word) : Word :=
  if signed then BitVec.ofInt 16 (a.toInt.tdiv b.toInt) else BitVec.ofNat 16 (a.toNat / b.toNat)

/-- The remainder for a divisor other than 0, with the sign of the dividend when signed (41_alu.md R166). -/
def remainder (signed : Bool) (a b : Word) : Word :=
  if signed then BitVec.ofInt 16 (a.toInt.tmod b.toInt) else BitVec.ofNat 16 (a.toNat % b.toNat)

/-- Signed 0x8000 / 0xFFFF: the quotient does not fit (41_alu.md R166, log 16). -/
def quotientOpen (signed : Bool) (a b : Word) : Bool := signed && a == 0x8000#16 && b == 0xFFFF#16

/-! ## Shifts -/

/-- What a shift computes: the result, and C where it writes C (42_shift.md R182). -/
structure ShiftOut where
  value : Word
  carry : Option Bool
deriving DecidableEq, Repr

/-- C of a shift by `n`, none where it is not written: `last` is the last bit shifted out, `edge` the operand's bit at
the end the shift moves towards (42_shift.md R181, log 11). -/
def carryOut (nm : ShiftNumerics) (n : Nat) (last edge : Bool) : Option Bool :=
  if n = 0 then
    match nm.zeroFlags with
    | .carryKept => none
    | .carryCleared => some false
    | .carryEdge => some edge
    | .flagsKept => none
  else
    match nm.carryOut with
    | .lastOut => some last
    | .edge => some edge

/-- C of a left shift by `n` (42_shift.md R181). -/
def leftCarry (cfg : Params) (a : Word) (n : Nat) : Option Bool :=
  carryOut cfg.shiftNumerics n (a.getLsbD (16 - n)) (a.getLsbD 15)

/-- C of a right shift by `n` (42_shift.md R181). -/
def rightCarry (cfg : Params) (a : Word) (n : Nat) : Option Bool :=
  carryOut cfg.shiftNumerics n (a.getLsbD (n - 1)) (a.getLsbD 0)

/-- C of ROR and ROC: not written unless the parameter says so, and then as of a right shift (42_shift.md R182,
93_implementation_defined.md section 3, log 11). -/
def rotateCarry (cfg : Params) (a : Word) (n : Nat) : Option Bool :=
  if cfg.shiftNumerics.rotateCarry then rightCarry cfg a n else none

/-- Whether a shift by `n` writes N and Z (42_shift.md R181, R182, log 11). -/
def shiftWritesNZ (cfg : Params) (n : Nat) : Bool := n != 0 || cfg.shiftNumerics.zeroFlags != .flagsKept

/-- A carry bit at position `i` of a word. -/
def bitAt (c : Bool) (i : Nat) : Word := if c then BitVec.twoPow 16 i else 0

/-- The carry-in term of SRC, SAC and ROC; at a count of 0 it is applied only where the parameter says so
(42_shift.md R181, log 11). -/
def carryIn (cfg : Params) (c : Bool) (n : Nat) : Word :=
  if n = 0 ∧ cfg.shiftNumerics.zeroCarryIn = false then 0
  else match cfg.shiftNumerics.carryInPlace with
    | .printed => bitAt c (15 - n)
    | .usual => bitAt c (16 - n)

/-- SL (42_shift.md R183). -/
def slOut (cfg : Params) (_ : Bool) (a : Word) (n : Nat) : ShiftOut := ⟨a <<< n, leftCarry cfg a n⟩

/-- SLC: the old carry is the first bit shifted in; at a count of 0 its term has no meaning (42_shift.md R181,
R184). -/
def slcOut (cfg : Params) (c : Bool) (a : Word) (n : Nat) : ShiftOut :=
  ⟨if n = 0 then a else a <<< n ||| bitAt c (n - 1), leftCarry cfg a n⟩

/-- SR (42_shift.md R185). -/
def srOut (cfg : Params) (_ : Bool) (a : Word) (n : Nat) : ShiftOut := ⟨a >>> n, rightCarry cfg a n⟩

/-- SRC (42_shift.md R186). -/
def srcOut (cfg : Params) (c : Bool) (a : Word) (n : Nat) : ShiftOut :=
  ⟨a >>> n ||| carryIn cfg c n, rightCarry cfg a n⟩

/-- SRA (42_shift.md R187). -/
def sraOut (cfg : Params) (_ : Bool) (a : Word) (n : Nat) : ShiftOut := ⟨a.sshiftRight n, rightCarry cfg a n⟩

/-- SAC (42_shift.md R188). -/
def sacOut (cfg : Params) (c : Bool) (a : Word) (n : Nat) : ShiftOut :=
  ⟨a.sshiftRight n ||| carryIn cfg c n, rightCarry cfg a n⟩

/-- ROR (42_shift.md R189). -/
def rorOut (cfg : Params) (_ : Bool) (a : Word) (n : Nat) : ShiftOut :=
  ⟨a >>> n ||| a <<< (16 - n), rotateCarry cfg a n⟩

/-- ROC (42_shift.md R190). -/
def rocOut (cfg : Params) (c : Bool) (a : Word) (n : Nat) : ShiftOut :=
  ⟨a >>> n ||| carryIn cfg c n ||| a <<< (16 - n), rotateCarry cfg a n⟩

/-- The PSW after a shift: N and Z of the result where `nz` says so, C where the shift writes it (42_shift.md
R182). -/
def pswShift (nz : Bool) (p : Word) (o : ShiftOut) : Word :=
  let q := if nz then pswSetNZ p o.value else p
  match o.carry with
  | none => q
  | some c => pswSet q 3 c

/-! ## Single operand -/

/-- SWB: the two bytes change places (43_single_operand.md R201). -/
def swapBytes (a : Word) : Word := a <<< 8 ||| a >>> 8

/-- INV: ones' complement (43_single_operand.md R202). -/
def invert (a : Word) : Word := a ^^^ 0xFFFF#16

/-- NEG: two's complement (43_single_operand.md R203). -/
def negate (a : Word) : Word := 0 - a

end Sys2Proof.Machine
end

