-- ==== Sys2Proof/Machine/BootRom.lean ====
section
/-! DEFINITION. The boot ROM's sixteen words and where it lies (70_reset_and_hazards.md R362, 20_memory.md R73). -/

namespace Sys2Proof.Machine

/-- The physical address of the boot ROM's first word (20_memory.md R66). -/
def bootRomBase : Nat := 0xFFFF0

/-- The boot ROM, word by word (70_reset_and_hazards.md R362). -/
def bootRomWords : List Word :=
  [0x0000#16, 0xFF41#16, 0xFF42#16, 0xFC21#16, 0xFE01#16, 0xA200#16, 0xA201#16, 0xA201#16,
   0xFE40#16, 0xFFF0#16, 0xFFFF#16, 0xFFFF#16, 0xFFFF#16, 0xFFFF#16, 0xFFFF#16, 0xFFFF#16]

/-- The low half (bits 7:0) of a word. -/
def loByte (w : Word) : Byte := w.extractLsb' 0 8

/-- The high half (bits 15:8) of a word. -/
def hiByte (w : Word) : Byte := w.extractLsb' 8 8

/-- The word of two halves. -/
def wordOf (hi lo : Byte) : Word := hi ++ lo

/-- What an unlisted byte cell reads as: the boot ROM's contents there, and no value elsewhere, where the spec
gives no reset contents (10_state.md R35, R36, log 4). Cell `2a` is the low half of word `a` (log 1). -/
def unlistedByte (cell : Nat) : Option Byte :=
  if bootRomBase ≤ cell / 2 then
    (bootRomWords[cell / 2 - bootRomBase]?).map (fun w => if cell % 2 = 0 then loByte w else hiByte w)
  else none

end Sys2Proof.Machine
end

