-- ==== Sys2Proof/Machine/Defaults.lean ====
section
/-! DEFINITION. The parameter values of the reset machine: the spec's defaults (00_scope.md R8). -/

namespace Sys2Proof.Machine

/-- The defaults of 00_scope.md R8 (logs 8 to 14); `MulDivSigned` has none and is left open (log 9). -/
def defaultParams : Params where
  jumpBase := 2
  mulDivSigned := Config.mulDivSigned
  subCarry := .borrow
  shiftNumerics :=
    { carryInPlace := .printed, carryOut := .lastOut, zeroFlags := .carryKept, zeroCarryIn := false,
      rotateCarry := false }
  dualPairOdd := .refuse
  archReadWindow := 3
  amvAddsThree := true
  fetchWindow := 4

end Sys2Proof.Machine
end

