-- ==== Sys2Proof/Machine/State.lean ====
section
/-! DEFINITION. The state of a Deep16 processor as plain data (10_state.md), the reasons a step can stop, and the
state after reset (10_state.md R35). -/

namespace Sys2Proof.Machine

/-- Which bank of PC, CS and PSW is active (10_state.md R31). -/
inductive View where
  | normal
  | shadow
deriving DecidableEq, Repr

/-- One copy of the banked registers (10_state.md R31). -/
structure Bank where
  pc : Word
  cs : Word
  psw : Word
deriving DecidableEq, Repr

/-- A pending delayed transfer: its target offset and, for JML, the new CS (10_state.md R25). -/
structure Transfer where
  cs : Option Word
  target : Word
deriving DecidableEq, Repr

/-- A register write in the recent-write window: the register, the value it held before, and how many
instructions ago it was written (10_state.md R34). -/
structure RegWrite where
  reg : RegNum
  old : Word
  age : Nat
deriving DecidableEq, Repr

/-- A store in the fetch window: the word address, the word it held before (none: never written), and how many
instructions ago it was stored (10_state.md R34, 20_memory.md R78). -/
structure StoreRec where
  addr : PhysAddr
  old : Option Word
  age : Nat
deriving DecidableEq, Repr

/-- What the environment drives at one instruction boundary (60_exceptions.md R323, 70_reset_and_hazards.md
R360). -/
structure Boundary where
  reset : Bool
  irq : Bool
deriving DecidableEq, Repr

/-- A write handed to the platform (20_memory.md R71). -/
structure PlatformWrite where
  addr : PhysAddr
  value : Word
deriving DecidableEq, Repr

/-- Memory: the listed byte cells, cell `2a` and `2a + 1` the low and high half of word `a` (log 1). -/
abbrev Memory := List Host.Cell

/-- The machine's state (10_state.md R20 to R34). The last five fields are the model's own: the parameters of
00_scope.md R8, the environment's and platform's inputs, the platform's output and the free-value counter. -/
structure State where
  /-- R0 to R14 (10_state.md R20); R15 is the active bank's PC. -/
  regs : Vector Word 15
  /-- PC_n, CS_n, PSW_n (10_state.md R31). -/
  normal : Bank
  /-- PC_s, CS_s, PSW_s: D0's PC', CS', PSW' (10_state.md R31). -/
  shadow : Bank
  /-- The view selector (10_state.md R31). -/
  view : View
  /-- The data segment register (10_state.md R27). -/
  ds : Word
  /-- The stack segment register (10_state.md R27). -/
  ss : Word
  /-- The extra segment register (10_state.md R27). -/
  es : Word
  /-- The physical memory (20_memory.md R61). -/
  mem : Memory
  /-- The pending delayed transfer (10_state.md R25); set while the delay-slot instruction executes (log 19). -/
  dly : Option Transfer
  /-- Set by HLT (47_system.md R276). -/
  halted : Bool
  /-- The recent-write window (10_state.md R34), newest first. -/
  recent : List RegWrite
  /-- The fetch window (10_state.md R34), newest first. -/
  stored : List StoreRec
  /-- The parameters (00_scope.md R8); no step writes them. -/
  cfg : Params
  /-- The coming boundary inputs, next one first; past its end no reset and IRQ low (log 6). -/
  env : List Boundary
  /-- The platform's coming answers to reads, next one first (20_memory.md R71, log 7). -/
  platformIn : List Word
  /-- The writes handed to the platform, oldest first (20_memory.md R71, log 7). -/
  platformOut : List PlatformWrite
  /-- How many free values have been drawn (log 5). -/
  draws : Nat
deriving DecidableEq, Repr

/-- Why the model stops with a fault. The hardware itself raises none (60_exceptions.md R321). -/
inductive Fault where
  /-- Raised by an instruction fetch from a word nothing has written since reset: it holds no value
  (10_state.md R36, log 4). Safe: the hardware would run some word there. -/
  | fetchUnwritten
deriving DecidableEq, Repr

/-- Why a step is refused. Every reason but the first is a situation the spec gives no meaning
(93_implementation_defined.md); refusing is safe. -/
inductive Refusal where
  /-- Raised by `exec` for an instruction without a meaning yet. Safe. -/
  | notModelled (mnemonic : String)
  /-- Raised by `step`: the fetched word encodes no instruction (30_encoding.md R120). Safe. -/
  | reserved (why : Reserved)
  /-- Raised by MUL32, MNW32, DIV32, DNW32 with odd Rd (41_alu.md R165). Safe. -/
  | oddPair
  /-- Raised by JML with odd Rx (45_control_flow.md R240). Safe. -/
  | oddJml
  /-- Raised by SET2, CLR2 with imm4 in 12..15 (46_psw_ops.md R261). Safe. -/
  | pswBitAbove15
  /-- Raised by SET, CLR, SET2, CLR2 when they would change PSW.S (46_psw_ops.md R262). Safe. -/
  | viewChange
  /-- Raised by MVS CS, Rd (40_data_movement.md R137). Safe. -/
  | mvsToCs
  /-- Raised by a control transfer, SWI or RETI in the delay slot of a taken transfer (45_control_flow.md R243).
  Safe. -/
  | transferInSlot
  /-- Raised by a read of R15 in the delay slot of a taken transfer, other than MOV imm2 = 3
  (45_control_flow.md R242, 40_data_movement.md R133). Safe. -/
  | pcReadInSlot
  /-- Raised by LD, ST whose base register's membership in an odd dual pair is open (44_memory_access.md R213).
  Safe. -/
  | oddDualPair
  /-- Raised by ST, STS to the boot ROM (20_memory.md R73). Safe. -/
  | romStore
deriving DecidableEq, Repr

/-- What an instruction's meaning answers. -/
abbrev Result := Host.Outcome State Fault Refusal

/-- The machine right after reset (10_state.md R35, 70_reset_and_hazards.md R361). R0 to R12, R14 and the shadow
bank have no reset value in the spec: zero is the model's DESIGN CHOICE (logs 2 and 3). -/
def State.reset : State where
  regs := #v[0, 0, 0, 0, 0, 0, 0, 0, 0, 0, 0, 0, 0, 0x7FFF, 0]
  normal := ⟨0x0000, 0xFFFF, 0x0000⟩
  shadow := ⟨0, 0, 0⟩
  view := .normal
  ds := 0x1000
  ss := 0x8000
  es := 0x2000
  mem := []
  dly := none
  halted := false
  recent := []
  stored := []
  cfg := defaultParams
  env := []
  platformIn := []
  platformOut := []
  draws := 0

end Sys2Proof.Machine
end

