-- ==== Sys2Proof/Machine/Ops.lean ====
section
/-! DEFINITION. The named operations over memory and state: byte cells, banks, registers, free values, word
accesses, the two windows, interrupt entry and return, reset in mid-run, and the fetch. -/

namespace Sys2Proof.Machine

/-! ## Memory cells (log 1) -/

/-- One byte cell, none where nothing has been written and the spec gives no reset contents
(10_state.md R36). -/
def readCell : Memory → Nat → Option Byte
  | [], a => unlistedByte a
  | (a', b) :: m, a => if a = a' then some b else readCell m a

/-- The list with cell `a` first, or without it where the value is what an unlisted cell reads as. -/
def listCell (a : Nat) (b : Byte) (m : Memory) : Memory :=
  if unlistedByte a = some b then m else (a, b) :: m

/-- Write one byte cell, keeping the list in its canonical form. -/
def writeCell : Memory → Nat → Byte → Memory
  | [], a, b => listCell a b []
  | (a', b') :: m, a, b =>
    if a < a' then listCell a b ((a', b') :: m)
    else if a = a' then listCell a b m
    else (a', b') :: writeCell m a b

/-- One memory word, none where a half has no value (20_memory.md R61). -/
def readWord (m : Memory) (a : PhysAddr) : Option Word :=
  match readCell m (2 * a.toNat), readCell m (2 * a.toNat + 1) with
  | some lo, some hi => some (wordOf hi lo)
  | _, _ => none

/-- Write one memory word (20_memory.md R70). -/
def writeWord (m : Memory) (a : PhysAddr) (v : Word) : Memory :=
  writeCell (writeCell m (2 * a.toNat) (loByte v)) (2 * a.toNat + 1) (hiByte v)

/-- Cell addresses rise strictly. -/
def cellsRise : Memory → Bool
  | [] => true
  | [_] => true
  | (a, _) :: (a', b') :: m => decide (a < a') && cellsRise ((a', b') :: m)

/-- The canonical form: addresses strictly rising and inside the 2^20 words, no entry equal to what an unlisted
cell reads as. -/
def Memory.wf (m : Memory) : Bool :=
  cellsRise m && m.all fun c => decide (c.1 < 2 ^ 21) && decide (unlistedByte c.1 ≠ some c.2)

/-- `phys(seg, off)`: the physical word address, modulo 2^20 (20_memory.md R62). -/
def phys (seg off : Word) : PhysAddr := seg.setWidth 20 <<< 4 + off.setWidth 20

/-- The graphics segment and the I/O segment less the boot ROM: answered by the platform
(20_memory.md R66, R71). -/
def isPlatform (a : PhysAddr) : Bool := decide (0xE0000 ≤ a.toNat) && decide (a.toNat < bootRomBase)

/-- The boot ROM (20_memory.md R73). -/
def isBootRom (a : PhysAddr) : Bool := decide (bootRomBase ≤ a.toNat)

/-- The screen buffer (20_memory.md R67). -/
def isScreen (a : PhysAddr) : Bool := decide (0xF1000 ≤ a.toNat) && decide (a.toNat ≤ 0xF17CF)

/-! ## Banks and registers (10_state.md R20, R31) -/

/-- The active bank (10_state.md R31). -/
def State.active (s : State) : Bank :=
  match s.view with
  | .normal => s.normal
  | .shadow => s.shadow

/-- The inactive bank: the alternate registers (10_state.md R31). -/
def State.inactive (s : State) : Bank :=
  match s.view with
  | .normal => s.shadow
  | .shadow => s.normal

/-- Write the active bank. -/
def State.setActive (s : State) (b : Bank) : State :=
  { s with
    normal := match s.view with
      | .normal => b
      | .shadow => s.normal
    shadow := match s.view with
      | .normal => s.shadow
      | .shadow => b }

/-- PC of the active view (10_state.md R31). While an instruction executes it is X + 1 (R24, log 20). -/
def State.pc (s : State) : Word := s.active.pc

/-- CS of the active view. -/
def State.cs (s : State) : Word := s.active.cs

/-- PSW of the active view. -/
def State.psw (s : State) : Word := s.active.psw

/-- Write PC of the active view. -/
def State.setPc (s : State) (v : Word) : State := s.setActive { s.active with pc := v }

/-- Write CS of the active view. -/
def State.setCs (s : State) (v : Word) : State := s.setActive { s.active with cs := v }

/-- Write PSW of the active view. -/
def State.setPsw (s : State) (v : Word) : State := s.setActive { s.active with psw := v }

/-- `R[i]` as a source operand: R0 to R14, and X + 1 for R15 (00_scope.md R11, 10_state.md R24). -/
def State.reg (s : State) (r : RegNum) : Word :=
  if h : r.toNat < 15 then s.regs[r.toNat] else s.pc

/-- Write one of R0 to R14 and note the write in the recent-write window (10_state.md R34); R15 is written by
`transfer` alone. -/
def State.setReg (s : State) (r : RegNum) (v : Word) : State :=
  { s with
    regs := if h : r.toNat < 15 then s.regs.set r.toNat v else s.regs
    recent := if h : r.toNat < 15 then ⟨r, s.regs[r.toNat], 0⟩ :: s.recent else s.recent }

/-- A segment register by its code; CS is the active view's (10_state.md R27). -/
def State.seg (s : State) : Seg → Word
  | .cs => s.cs
  | .ds => s.ds
  | .ss => s.ss
  | .es => s.es

/-- Write DS, SS or ES; a program has no way to write CS here (40_data_movement.md R137). -/
def State.setSeg (s : State) (g : Seg) (v : Word) : State :=
  { s with
    ds := if g = .ds then v else s.ds
    ss := if g = .ss then v else s.ss
    es := if g = .es then v else s.es }

/-- Set or clear the pending transfer (10_state.md R25). -/
def State.setDly (s : State) (d : Option Transfer) : State := { s with dly := d }

/-- Stop the processor (47_system.md R276). -/
def State.halt (s : State) : State := { s with halted := true }

/-- Set the free-value counter (log 5). -/
def State.setDraws (s : State) (n : Nat) : State := { s with draws := n }

/-- Set the platform's coming answers (log 7). -/
def State.setPlatformIn (s : State) (ws : List Word) : State := { s with platformIn := ws }

/-- Hand a write to the platform (20_memory.md R71, log 7). -/
def State.platformWrite (s : State) (a : PhysAddr) (v : Word) : State :=
  { s with platformOut := s.platformOut ++ [⟨a, v⟩] }

/-- Store a word of memory and note the word it replaces in the fetch window (20_memory.md R78). -/
def State.storeMem (s : State) (a : PhysAddr) (v : Word) : State :=
  { s with
    mem := writeWord s.mem a v
    stored := ⟨a, readWord s.mem a, 0⟩ :: s.stored }

/-- The instruction executing is the delay slot of a taken transfer (10_state.md R26, log 19). -/
def State.inSlot (s : State) : Bool := s.dly.isSome

/-! ## Free values (log 5) -/

/-- Draw a free word (00_scope.md R11). -/
def drawWord (s : State) : Word × State := (Config.freeWord s.draws, s.setDraws (s.draws + 1))

/-- Draw a free bit. -/
def drawBit (s : State) : Bool × State := (Config.freeBit s.draws, s.setDraws (s.draws + 1))

/-- A free choice between the current value and earlier ones; with none there is nothing to choose. -/
def chooseOld {α : Type} (cur : α) (olds : List α) (s : State) : α × State :=
  match olds with
  | [] => (cur, s)
  | o :: os => ((cur :: o :: os).getD (Config.freeChoice s.draws % (os.length + 2)) cur,
      s.setDraws (s.draws + 1))

/-! ## Word accesses (20_memory.md R65) -/

/-- A read the platform answers: its next answer, or a free value when it has given none
(20_memory.md R71, log 7). -/
def platformRead (s : State) : Word × State :=
  match s.platformIn with
  | [] => drawWord s
  | w :: ws => (w, s.setPlatformIn ws)

/-- A data read: the platform's answer, the word last written, or a free value for a word nothing has written
(20_memory.md R71, R75, 10_state.md R36, log 4). -/
def loadWord (a : PhysAddr) (s : State) : Word × State :=
  if isPlatform a then platformRead s
  else match readWord s.mem a with
    | some w => (w, s)
    | none => drawWord s

/-- A data write: refused on the boot ROM, an event for the platform, or a word of memory noted in the fetch
window (20_memory.md R71, R73, R78). -/
def storeWord (a : PhysAddr) (v : Word) (s : State) : Result :=
  if isBootRom a then .refused .romStore
  else if isPlatform a then .next (s.platformWrite a v)
  else .next (s.storeMem a v)

/-- The word a screen cell was last given: its low byte is the character shown there, its high byte the
attributes (20_memory.md R67). -/
def screenCell (s : State) (a : PhysAddr) : Option Word :=
  if isScreen a then ((s.platformOut.filter (·.addr = a)).getLast?).map (·.value) else none

/-! ## The two windows (10_state.md R34) -/

/-- A new instruction begins: every noted write is one instruction older, and those beyond the windows are
dropped (40_data_movement.md R135, 20_memory.md R78). -/
def ageWindows (s : State) : State :=
  { s with
    recent := (s.recent.map fun e => { e with age := e.age + 1 }).filter fun e => decide (e.age ≤ s.cfg.archReadWindow)
    stored := (s.stored.map fun e => { e with age := e.age + 1 }).filter fun e => decide (e.age ≤ s.cfg.fetchWindow) }

/-- A pipeline flush: both windows are emptied (10_state.md R34, 47_system.md R272). -/
def flush (s : State) : State := { s with recent := [], stored := [] }

/-- The architectural read of one of R0 to R14: its value when no instruction of the window wrote it, else a
free choice among that value and those it held before the window's writes (40_data_movement.md R135, log 13). -/
def archRead (r : RegNum) (s : State) : Word × State :=
  chooseOld (s.reg r) ((s.recent.filter (·.reg = r)).map (·.old)) s

/-- The instruction fetch from a physical address: the platform's answer, or the word there, or a free choice
between it and the words that stores still in the fetch window replaced (20_memory.md R64, R71, R78, log 14).
None: the word has no value (log 4). -/
def fetchWord (a : PhysAddr) (s : State) : Option Word × State :=
  if isPlatform a then
    match platformRead s with
    | (w, s') => (some w, s')
  else chooseOld (readWord s.mem a) ((s.stored.filter (·.addr = a)).map (·.old)) s

/-! ## Interrupt entry and return (60_exceptions.md) -/

/-- The vectors of interrupt entry (20_memory.md R72). -/
inductive EntryVector where
  /-- HW_INT_VECTOR, physical word 0x00001. -/
  | hardware
  /-- SWI_VECTOR, physical word 0x00002. -/
  | swi
deriving DecidableEq, Repr

/-- The physical address of a vector (20_memory.md R72). -/
def vectorAddr : EntryVector → PhysAddr
  | .hardware => 0x00001
  | .swi => 0x00002

/-- The shadow PSW interrupt entry writes: the active PSW with S = 1 and I = 0 (60_exceptions.md R326). -/
def entryPsw (p : Word) : Word := pswSet (pswSet p 5 true) 4 false

/-- Interrupt entry (60_exceptions.md R326, R330): nothing is pushed, the normal bank stays, the shadow bank gets
the vector word, CS 0 and the configured PSW, and the pipeline is flushed. -/
def interruptEntry (v : EntryVector) (s : State) : State :=
  match loadWord (vectorAddr v) s with
  | (t, s') => flush { s' with
      view := .shadow
      shadow := ⟨t, 0x0000, entryPsw s.psw⟩
      dly := none }

/-- Return from interrupt: the normal view becomes active, nothing is copied, the pipeline is flushed
(47_system.md R274, 60_exceptions.md R329). In the normal view it is a flush. -/
def interruptReturn (s : State) : State := flush { s with view := .normal }

/-! ## Boundary inputs (log 6) -/

/-- What the environment drives at this boundary. -/
def State.boundary (s : State) : Boundary := s.env.headD ⟨false, false⟩

/-- The boundary's input has been sampled. -/
def State.nextBoundary (s : State) : State := { s with env := s.env.tail }

/-- The acceptance test of the hardware interrupt (60_exceptions.md R324). -/
def acceptsInterrupt (s : State) : Bool := s.boundary.irq && pswI s.psw && s.dly.isNone

/-- Reset in mid-run: the reset state of 10_state.md R35, the boundary inputs, the platform's lists, the
parameters and the free-value counter going on (70_reset_and_hazards.md R360, R361, log 18). -/
def resetEvent (s : State) : State :=
  { State.reset with
    cfg := s.cfg
    env := s.env
    platformIn := s.platformIn
    platformOut := s.platformOut
    draws := s.draws }

/-! ## Sequencing (10_state.md R26) -/

/-- The PC moves past the fetched instruction; it wraps inside the segment (10_state.md R26). -/
def advancePc (s : State) : State := s.setPc (s.pc + 1)

/-- After a delay-slot instruction: the pending transfer takes effect (10_state.md R26). -/
def completeTransfer (d : Transfer) (s : State) : State :=
  match d.cs with
  | none => (s.setPc d.target).setDly none
  | some c => ((s.setPc d.target).setCs c).setDly none

/-- The end of an instruction: one that stood in a delay slot completes the transfer (10_state.md R26). -/
def finishSlot (d : Option Transfer) (r : Result) : Result :=
  match r with
  | .next s => match d with
    | none => .next s
    | some t => .next (completeTransfer t s)
  | .fault f => .fault f
  | .refused f => .refused f

/-- The fetch at the PC of the active view, as the next instruction begins (10_state.md R26, 20_memory.md R64). -/
def fetchNext (s : State) : Option Word × State := fetchWord (phys s.cs s.pc) (ageWindows s)

/-- Place a word where `fetchNext` fetches: in the memory cells, with no earlier word left in the fetch window,
or as the platform's next answer; the machine is not halted, and the coming boundary neither resets nor interrupts
it (log 17). -/
def placeFetchWord (s : State) (w : Word) : State :=
  let a := phys s.cs s.pc
  { s with
    mem := if isPlatform a then s.mem else writeWord s.mem a w
    stored := s.stored.filter fun e => decide (e.addr ≠ a)
    platformIn := if isPlatform a then w :: s.platformIn else s.platformIn
    halted := false
    env := match s.env with
      | [] => []
      | _ :: bs => ⟨false, false⟩ :: bs }

end Sys2Proof.Machine
end

