-- ==== Sys2Proof/Machine/Operands.lean ====
section
/-! DEFINITION. The operand forms: register sources and destinations with R15 as the PC (10_state.md R24, R25,
45_control_flow.md R242, R243), immediates (30_encoding.md R105), effective addresses and the implicit segment
(44_memory_access.md R211 to R213). -/

namespace Sys2Proof.Machine

/-! ## Registers -/

/-- Read a register as a source operand. R15 gives X + 1, and is refused in the delay slot of a taken transfer
(10_state.md R24, 45_control_flow.md R242). -/
def readReg (r : RegNum) (s : State) (k : Word → Result) : Result :=
  if r = 15 ∧ s.inSlot then .refused .pcReadInSlot else k (s.reg r)

/-- Set the pending transfer; refused in the delay slot of a taken transfer (10_state.md R25,
45_control_flow.md R243). -/
def transfer (cs : Option Word) (t : Word) (s : State) : Result :=
  if s.inSlot then .refused .transferInSlot else .next (s.setDly (some ⟨cs, t⟩))

/-- Write a register as a destination; a write of R15 is a delayed transfer (10_state.md R25). -/
def writeReg (r : RegNum) (v : Word) (s : State) : Result :=
  if r = 15 then transfer none v s else .next (s.setReg r v)

/-! ## ALU2 second operands -/

/-- The second operand of an ALU2 instruction (41_alu.md R150). -/
inductive Src where
  | reg (rs : RegNum)
  | imm (v : BitVec 4)
deriving DecidableEq, Repr

/-- Read the second operand; immediates are zero-extended (41_alu.md R150, 30_encoding.md R105). -/
def readSrc (x : Src) (s : State) (k : Word → Result) : Result :=
  match x with
  | .reg rs => readReg rs s k
  | .imm v => k (v.setWidth 16)

/-! ## Memory operands -/

/-- The effective offset of LD and ST, modulo 2^16 (44_memory_access.md R211). -/
def effectiveOffset (base : Word) (off : BitVec 5) : Word := base + off.setWidth 16

/-- Whether register `rb` selects the segment of selector `sel` with dual bit `dual`; none where the readings of
an odd pair differ and the parameter `DualPairOdd` names neither (44_memory_access.md R212, R213, log 12). -/
def inSelector (odd : DualPairOdd) (sel : RegNum) (dual : Bool) (rb : RegNum) : Option Bool :=
  if rb = sel then some true
  else if dual = false then some false
  else if sel.getLsbD 0 = false then some (rb = sel + 1)
  else match odd with
    | .xorOne => some (rb = sel - 1)
    | .plusOne => some (rb = sel + 1)
    | .refuse => if rb = sel - 1 ∨ rb = sel + 1 then none else some false

/-- The implicit segment of LD and ST; none where the stack-set or extra-set test is undecidable
(44_memory_access.md R212, R213). -/
def implicitSeg (s : State) (rb : RegNum) : Option Seg :=
  if rb = 0 then some .ds
  else match (if pswSR s.psw = 0 then some false else inSelector s.cfg.dualPairOdd (pswSR s.psw) (pswDS s.psw) rb) with
    | none => none
    | some true => some .ss
    | some false =>
      match (if pswER s.psw = 0 then some false
          else inSelector s.cfg.dualPairOdd (pswER s.psw) (pswDE s.psw) rb) with
      | none => none
      | some true => some .es
      | some false => some .ds

/-- The physical address of an LD or ST: the base register read as an operand, the implicit segment, the
effective offset (44_memory_access.md R211, R212). -/
def implicitAddr (rb : RegNum) (off : BitVec 5) (s : State) (k : PhysAddr → Result) : Result :=
  readReg rb s fun base =>
    match implicitSeg s rb with
    | none => .refused .oddDualPair
    | some g => k (phys (s.seg g) (effectiveOffset base off))

/-- The physical address of an LDS or STS: the named segment and the address register, no displacement
(44_memory_access.md R216, R217). -/
def explicitAddr (g : Seg) (rs : RegNum) (s : State) (k : PhysAddr → Result) : Result :=
  readReg rs s fun off => k (phys (s.seg g) off)

/-- The target of a conditional jump: X + JumpBase + sext(target9), X the jump's own offset
(45_control_flow.md R231, log 8). -/
def jumpTarget (s : State) (target : BitVec 9) : Word := (s.pc - 1) + s.cfg.jumpBase + target.signExtend 16

/-- An even register number (41_alu.md R165, 45_control_flow.md R240). -/
def isEven (r : RegNum) : Bool := r.getLsbD 0 == false

end Sys2Proof.Machine
end

