-- ==== Sys2Proof/Machine/Alu.lean ====
section
/-! DEFINITION. The two-operand ALU instructions but MUL and DIV (41_alu.md): the shared operation, and one
meaning per row of the table. -/

namespace Sys2Proof.Machine

/-- An ALU2 instruction: both operands are read, the PSW's flags are written, and with w = 1 the result goes to
Rd (41_alu.md R150, R151, R164). -/
def alu2 (f : Params → Word → Word → Word → AluOut) (w : Bool) (rd : RegNum) (x : Src) (s : State) : Result :=
  readReg rd s fun a => readSrc x s fun b =>
    if w then writeReg rd (f s.cfg s.psw a b).value (s.setPsw (f s.cfg s.psw a b).psw)
    else .next (s.setPsw (f s.cfg s.psw a b).psw)

/-- ADD Rd, Rs (41_alu.md R154). -/
def execAddR (rd rs : RegNum) (s : State) : Result := alu2 addOut true rd (.reg rs) s

/-- ADD Rd, imm (41_alu.md R154). -/
def execAddI (rd : RegNum) (imm : BitVec 4) (s : State) : Result := alu2 addOut true rd (.imm imm) s

/-- ANW Rd, Rs (41_alu.md R155). -/
def execAnwR (rd rs : RegNum) (s : State) : Result := alu2 addOut false rd (.reg rs) s

/-- ANW Rd, imm (41_alu.md R155). -/
def execAnwI (rd : RegNum) (imm : BitVec 4) (s : State) : Result := alu2 addOut false rd (.imm imm) s

/-- SUB Rd, Rs (41_alu.md R156). -/
def execSubR (rd rs : RegNum) (s : State) : Result := alu2 subOut true rd (.reg rs) s

/-- SUB Rd, imm (41_alu.md R156). -/
def execSubI (rd : RegNum) (imm : BitVec 4) (s : State) : Result := alu2 subOut true rd (.imm imm) s

/-- CMP Rd, Rs (41_alu.md R157). -/
def execCmpR (rd rs : RegNum) (s : State) : Result := alu2 subOut false rd (.reg rs) s

/-- CMP Rd, imm (41_alu.md R157). -/
def execCmpI (rd : RegNum) (imm : BitVec 4) (s : State) : Result := alu2 subOut false rd (.imm imm) s

/-- AND Rd, Rs (41_alu.md R158). -/
def execAndR (rd rs : RegNum) (s : State) : Result := alu2 andOut true rd (.reg rs) s

/-- AND Rd, imm (41_alu.md R158). -/
def execAndI (rd : RegNum) (imm : BitVec 4) (s : State) : Result := alu2 andOut true rd (.imm imm) s

/-- TST Rd, Rs (41_alu.md R159). -/
def execTstR (rd rs : RegNum) (s : State) : Result := alu2 andOut false rd (.reg rs) s

/-- TST Rd, imm (41_alu.md R159). -/
def execTstI (rd : RegNum) (imm : BitVec 4) (s : State) : Result := alu2 andOut false rd (.imm imm) s

/-- OR Rd, Rs (41_alu.md R160). -/
def execOrR (rd rs : RegNum) (s : State) : Result := alu2 orOut true rd (.reg rs) s

/-- OR Rd, imm (41_alu.md R160). -/
def execOrI (rd : RegNum) (imm : BitVec 4) (s : State) : Result := alu2 orOut true rd (.imm imm) s

/-- ONW Rd, Rs (41_alu.md R161). -/
def execOnwR (rd rs : RegNum) (s : State) : Result := alu2 orOut false rd (.reg rs) s

/-- ONW Rd, imm (41_alu.md R161). -/
def execOnwI (rd : RegNum) (imm : BitVec 4) (s : State) : Result := alu2 orOut false rd (.imm imm) s

/-- XOR Rd, Rs (41_alu.md R162). -/
def execXorR (rd rs : RegNum) (s : State) : Result := alu2 xorOut true rd (.reg rs) s

/-- XOR Rd, imm (41_alu.md R162). -/
def execXorI (rd : RegNum) (imm : BitVec 4) (s : State) : Result := alu2 xorOut true rd (.imm imm) s

/-- TBC Rd, Rs (41_alu.md R163). -/
def execTbcR (rd rs : RegNum) (s : State) : Result := alu2 xorOut false rd (.reg rs) s

/-- TBC Rd, imm (41_alu.md R163). -/
def execTbcI (rd : RegNum) (imm : BitVec 4) (s : State) : Result := alu2 xorOut false rd (.imm imm) s

end Sys2Proof.Machine
end

