-- ==== Sys2Proof/Machine/ControlFlow.lean ====
section
/-! DEFINITION. The conditional jumps and JML (45_control_flow.md). None of them writes the PSW. -/

namespace Sys2Proof.Machine

/-- A conditional jump: when the condition holds, a delayed transfer to its target; otherwise nothing
(45_control_flow.md R241, R243, R231). -/
def jumpIf (c : Bool) (target : BitVec 9) (s : State) : Result :=
  if c then transfer none (jumpTarget s target) s else .next s

/-- JZ target (45_control_flow.md R232). -/
def execJz (target : BitVec 9) (s : State) : Result := jumpIf (pswZ s.psw) target s

/-- JNZ target (45_control_flow.md R233). -/
def execJnz (target : BitVec 9) (s : State) : Result := jumpIf (!pswZ s.psw) target s

/-- JC target (45_control_flow.md R234). -/
def execJc (target : BitVec 9) (s : State) : Result := jumpIf (pswC s.psw) target s

/-- JNC target (45_control_flow.md R235). -/
def execJnc (target : BitVec 9) (s : State) : Result := jumpIf (!pswC s.psw) target s

/-- JN target (45_control_flow.md R236). -/
def execJn (target : BitVec 9) (s : State) : Result := jumpIf (pswN s.psw) target s

/-- JNN target (45_control_flow.md R237). -/
def execJnn (target : BitVec 9) (s : State) : Result := jumpIf (!pswN s.psw) target s

/-- JO target (45_control_flow.md R238). -/
def execJo (target : BitVec 9) (s : State) : Result := jumpIf (pswV s.psw) target s

/-- JNO target (45_control_flow.md R239). -/
def execJno (target : BitVec 9) (s : State) : Result := jumpIf (!pswV s.psw) target s

/-- JML Rx: CS from Rx and the offset from Rx + 1, after the delay slot; odd Rx is refused
(45_control_flow.md R240). -/
def execJml (rx : RegNum) (s : State) : Result :=
  if isEven rx then
    readReg rx s fun c => readReg (rx + 1) s fun t => transfer (some c) t s
  else .refused .oddJml

end Sys2Proof.Machine
end

