-- ==== Sys2Proof/Machine/DataMovement.lean ====
section
/-! DEFINITION. LDI, LSI, MOV, AMV, MVS and SMV (40_data_movement.md). None of them writes a flag. -/

namespace Sys2Proof.Machine

/-- LDI imm: R0 gets the zero-extended immediate (40_data_movement.md R130). -/
def execLdi (imm : BitVec 15) (s : State) : Result := writeReg 0 (imm.setWidth 16) s

/-- LSI Rd, imm: Rd gets the sign-extended immediate (40_data_movement.md R131). -/
def execLsi (rd : RegNum) (imm : BitVec 5) (s : State) : Result := writeReg rd (imm.signExtend 16) s

/-- MOV Rd, Rs, imm with imm in 0..2, the link and the register jump among them
(40_data_movement.md R132 to R134). -/
def execMov (rd rs : RegNum) (imm : BitVec 2) (s : State) : Result :=
  readReg rs s fun v => writeReg rd (v + imm.setWidth 16) s

/-- The word the architectural read of a register other than R15 gives: plus 3 under `AmvAddsThree`
(40_data_movement.md R135, log 13). -/
def amvValue (cfg : Params) (v : Word) : Word := if cfg.amvAddsThree then v + 3 else v

/-- MOV Rd, Rs, 3: the architectural read. Rs = 15 gives X + 1, in a delay slot too; another register its
architectural value (40_data_movement.md R135). -/
def execAmv (rd rs : RegNum) (s : State) : Result :=
  if rs = 15 then writeReg rd s.pc s
  else match archRead rs s with
    | (v, s') => writeReg rd (amvValue s.cfg v) s'

/-- MVS Rd, Sx: read a segment register (40_data_movement.md R136). -/
def execMvsFrom (rd : RegNum) (g : Seg) (s : State) : Result := writeReg rd (s.seg g) s

/-- MVS Sx, Rd: write DS, SS or ES; CS is refused (40_data_movement.md R137). -/
def execMvsTo (g : Seg) (rd : RegNum) (s : State) : Result :=
  if g = .cs then .refused .mvsToCs else readReg rd s fun v => .next (s.setSeg g v)

/-- SMV Rd, APC: the inactive view's PC (40_data_movement.md R138). -/
def execSmvApc (rd : RegNum) (s : State) : Result := writeReg rd s.inactive.pc s

/-- SMV Rd, APSW: the inactive view's PSW (40_data_movement.md R139). -/
def execSmvApsw (rd : RegNum) (s : State) : Result := writeReg rd s.inactive.psw s

/-- SMV Rd, PSW: the active PSW (40_data_movement.md R140). -/
def execSmvPsw (rd : RegNum) (s : State) : Result := writeReg rd s.psw s

/-- SMV Rd, ACS: the inactive view's CS (40_data_movement.md R141). -/
def execSmvAcs (rd : RegNum) (s : State) : Result := writeReg rd s.inactive.cs s

end Sys2Proof.Machine
end

