-- ==== Sys2Proof/Machine/MemoryAccess.lean ====
section
/-! DEFINITION. LD, ST, LDS and STS (44_memory_access.md). None of them writes a flag, and none can fault. -/

namespace Sys2Proof.Machine

/-- Load the word at a physical address into a register (44_memory_access.md R214, R216). -/
def loadInto (rd : RegNum) (a : PhysAddr) (s : State) : Result :=
  match loadWord a s with
  | (v, s') => writeReg rd v s'

/-- Store a register at a physical address (44_memory_access.md R215, R217). -/
def storeFrom (rd : RegNum) (a : PhysAddr) (s : State) : Result :=
  readReg rd s fun v => storeWord a v s

/-- LD Rd, Rb, offset: load with implicit segment (44_memory_access.md R214). -/
def execLd (rd rb : RegNum) (off : BitVec 5) (s : State) : Result :=
  implicitAddr rb off s fun a => loadInto rd a s

/-- ST Rd, Rb, offset: store with implicit segment (44_memory_access.md R215). -/
def execSt (rd rb : RegNum) (off : BitVec 5) (s : State) : Result :=
  implicitAddr rb off s fun a => storeFrom rd a s

/-- LDS Rd, seg, Rs: load with explicit segment (44_memory_access.md R216). -/
def execLds (rd : RegNum) (g : Seg) (rs : RegNum) (s : State) : Result :=
  explicitAddr g rs s fun a => loadInto rd a s

/-- STS Rd, seg, Rs: store with explicit segment (44_memory_access.md R217). -/
def execSts (rd : RegNum) (g : Seg) (rs : RegNum) (s : State) : Result :=
  explicitAddr g rs s fun a => storeFrom rd a s

end Sys2Proof.Machine
end

