-- ==== Sys2Proof/Machine/MulDiv.lean ====
section
/-! DEFINITION. The multiply and divide instructions (41_alu.md R165 to R175). -/

namespace Sys2Proof.Machine

/-- Write a register pair, low half or quotient first; odd Rd is refused before (41_alu.md R165). -/
def writePair (rd : RegNum) (lo hi : Word) (s : State) : Result :=
  match writeReg rd lo s with
  | .next s' => writeReg (rd + 1) hi s'
  | .fault f => .fault f
  | .refused f => .refused f

/-- What a division gives: quotient, remainder, N and Z (41_alu.md R166, R167). -/
structure DivOut where
  quo : Word
  rem : Word
  n : Bool
  z : Bool
deriving DecidableEq, Repr

/-- Divide. By zero: quotient, remainder, N and Z are four free values (41_alu.md R167, log 15). Signed
0x8000 / 0xFFFF: the quotient is a free value, N and Z are taken from it (R166, log 16). -/
def divide (a b : Word) (s : State) : DivOut × State :=
  if b = 0 then
    match drawWord s with
    | (q, s1) => match drawWord s1 with
      | (m, s2) => match drawBit s2 with
        | (n, s3) => match drawBit s3 with
          | (z, s4) => (⟨q, m, n, z⟩, s4)
  else if quotientOpen s.cfg.mulDivSigned a b then
    match drawWord s with
    | (q, s1) => (⟨q, remainder s.cfg.mulDivSigned a b, q.msb, q == 0⟩, s1)
  else
    (⟨quotient s.cfg.mulDivSigned a b, remainder s.cfg.mulDivSigned a b,
      (quotient s.cfg.mulDivSigned a b).msb, quotient s.cfg.mulDivSigned a b == 0⟩, s)

/-- The state with a division's N and Z written; V and C stay (41_alu.md R152). -/
def divFlags (o : DivOut) (s : State) : State := s.setPsw (pswSet (pswSet s.psw 0 o.n) 1 o.z)

/-- The effect of a 32-bit product: N and Z, and with w = 1 the pair (41_alu.md R170). -/
def multiplyInto (w : Bool) (rd : RegNum) (p : BitVec 32) (s : State) : Result :=
  if w then writePair rd (p.extractLsb' 0 16) (p.extractLsb' 16 16) (s.setPsw (pswSetNZ32 s.psw p))
  else .next (s.setPsw (pswSetNZ32 s.psw p))

/-- A 32-bit multiply: N and Z from the 32-bit product; with w = 1 the pair is written (41_alu.md R165, R170). -/
def multiply32 (w : Bool) (rd rs : RegNum) (s : State) : Result :=
  if isEven rd then
    readReg rd s fun a => readReg rs s fun b =>
      multiplyInto w rd (product s.cfg.mulDivSigned a b) s
  else .refused .oddPair

/-- A 16-bit divide: with w = 1 Rd gets the quotient (41_alu.md R172). -/
def divide16 (w : Bool) (rd rs : RegNum) (s : State) : Result :=
  readReg rd s fun a => readReg rs s fun b =>
    match divide a b s with
    | (o, s') => if w then writeReg rd o.quo (divFlags o s') else .next (divFlags o s')

/-- A 32-bit divide: with w = 1 the pair gets quotient and remainder (41_alu.md R165, R174). -/
def divide32 (w : Bool) (rd rs : RegNum) (s : State) : Result :=
  if isEven rd then
    readReg rd s fun a => readReg rs s fun b =>
      match divide a b s with
      | (o, s') => if w then writePair rd o.quo o.rem (divFlags o s') else .next (divFlags o s')
  else .refused .oddPair

/-- MUL Rd, Rs (41_alu.md R168). -/
def execMul (rd rs : RegNum) (s : State) : Result := alu2 mulOut true rd (.reg rs) s

/-- MNW Rd, Rs (41_alu.md R169). -/
def execMnw (rd rs : RegNum) (s : State) : Result := alu2 mulOut false rd (.reg rs) s

/-- MUL32 Rd, Rs (41_alu.md R170). -/
def execMul32 (rd rs : RegNum) (s : State) : Result := multiply32 true rd rs s

/-- MNW32 Rd, Rs (41_alu.md R171). -/
def execMnw32 (rd rs : RegNum) (s : State) : Result := multiply32 false rd rs s

/-- DIV Rd, Rs (41_alu.md R172). -/
def execDiv (rd rs : RegNum) (s : State) : Result := divide16 true rd rs s

/-- DNW Rd, Rs (41_alu.md R173). -/
def execDnw (rd rs : RegNum) (s : State) : Result := divide16 false rd rs s

/-- DIV32 Rd, Rs (41_alu.md R174). -/
def execDiv32 (rd rs : RegNum) (s : State) : Result := divide32 true rd rs s

/-- DNW32 Rd, Rs (41_alu.md R175). -/
def execDnw32 (rd rs : RegNum) (s : State) : Result := divide32 false rd rs s

end Sys2Proof.Machine
end

