-- ==== Sys2Proof/Machine/PswOps.lean ====
section
/-! DEFINITION. The PSW operations SRS, SRD, ERS, ERD, SET, CLR, SET2 and CLR2 (46_psw_ops.md), on the PSW of the
active view. -/

namespace Sys2Proof.Machine

/-- Write PSW.SR and the DS bit; the register named is not read (46_psw_ops.md R250, R251). -/
def selectStack (rx : RegNum) (dual : Bool) (s : State) : Result := .next (s.setPsw (pswSelect s.psw 6 rx dual))

/-- Write PSW.ER and the DE bit; the register named is not read (46_psw_ops.md R250, R251). -/
def selectExtra (rx : RegNum) (dual : Bool) (s : State) : Result := .next (s.setPsw (pswSelect s.psw 11 rx dual))

/-- Write PSW bit `i` (46_psw_ops.md R256). Bits above 15 do not exist (R261); a write that would change S is
refused and one that leaves it does nothing (R262). -/
def writePswBit (i : Nat) (b : Bool) (s : State) : Result :=
  if 15 < i then .refused .pswBitAbove15
  else if i = 5 ∧ pswS s.psw ≠ b then .refused .viewChange
  else .next (s.setPsw (pswSet s.psw i b))

/-- SRS Rx (46_psw_ops.md R252). -/
def execSrs (rx : RegNum) (s : State) : Result := selectStack rx false s

/-- SRD Rx (46_psw_ops.md R253). -/
def execSrd (rx : RegNum) (s : State) : Result := selectStack rx true s

/-- ERS Rx (46_psw_ops.md R254). -/
def execErs (rx : RegNum) (s : State) : Result := selectExtra rx false s

/-- ERD Rx (46_psw_ops.md R255). -/
def execErd (rx : RegNum) (s : State) : Result := selectExtra rx true s

/-- SET imm (46_psw_ops.md R257). -/
def execSet (imm : BitVec 4) (s : State) : Result := writePswBit imm.toNat true s

/-- CLR imm (46_psw_ops.md R258). -/
def execClr (imm : BitVec 4) (s : State) : Result := writePswBit imm.toNat false s

/-- SET2 imm (46_psw_ops.md R259). -/
def execSet2 (imm : BitVec 4) (s : State) : Result := writePswBit (imm.toNat + 4) true s

/-- CLR2 imm (46_psw_ops.md R260). -/
def execClr2 (imm : BitVec 4) (s : State) : Result := writePswBit (imm.toNat + 4) false s

end Sys2Proof.Machine
end

