-- ==== Sys2Proof/Machine/Shift.lean ====
section
/-! DEFINITION. The shifts and rotates (42_shift.md): the shared operation, and one meaning per row. -/

namespace Sys2Proof.Machine

/-- A shift instruction: Rd is read, the flags are written, and the result always goes to Rd
(42_shift.md R180, R182). -/
def shiftOp (f : Params → Bool → Word → Nat → ShiftOut) (rd : RegNum) (count : BitVec 3) (s : State) : Result :=
  readReg rd s fun a =>
    writeReg rd (f s.cfg (pswC s.psw) a count.toNat).value
      (s.setPsw (pswShift (shiftWritesNZ s.cfg count.toNat) s.psw (f s.cfg (pswC s.psw) a count.toNat)))

/-- SL Rd, count (42_shift.md R183). -/
def execSl (rd : RegNum) (count : BitVec 3) (s : State) : Result := shiftOp slOut rd count s

/-- SLC Rd, count (42_shift.md R184). -/
def execSlc (rd : RegNum) (count : BitVec 3) (s : State) : Result := shiftOp slcOut rd count s

/-- SR Rd, count (42_shift.md R185). -/
def execSr (rd : RegNum) (count : BitVec 3) (s : State) : Result := shiftOp srOut rd count s

/-- SRC Rd, count (42_shift.md R186). -/
def execSrc (rd : RegNum) (count : BitVec 3) (s : State) : Result := shiftOp srcOut rd count s

/-- SRA Rd, count (42_shift.md R187). -/
def execSra (rd : RegNum) (count : BitVec 3) (s : State) : Result := shiftOp sraOut rd count s

/-- SAC Rd, count (42_shift.md R188). -/
def execSac (rd : RegNum) (count : BitVec 3) (s : State) : Result := shiftOp sacOut rd count s

/-- ROR Rd, count (42_shift.md R189). -/
def execRor (rd : RegNum) (count : BitVec 3) (s : State) : Result := shiftOp rorOut rd count s

/-- ROC Rd, count (42_shift.md R190). -/
def execRoc (rd : RegNum) (count : BitVec 3) (s : State) : Result := shiftOp rocOut rd count s

end Sys2Proof.Machine
end

