-- ==== Sys2Proof/Machine/SingleOperand.lean ====
section
/-! DEFINITION. SWB, INV and NEG (43_single_operand.md). None of them writes a flag (R204). -/

namespace Sys2Proof.Machine

/-- A single-operand instruction: Rx is read and written with the result (43_single_operand.md R200). -/
def single (f : Word → Word) (rx : RegNum) (s : State) : Result :=
  readReg rx s fun a => writeReg rx (f a) s

/-- SWB Rx (43_single_operand.md R201). -/
def execSwb (rx : RegNum) (s : State) : Result := single swapBytes rx s

/-- INV Rx (43_single_operand.md R202). -/
def execInv (rx : RegNum) (s : State) : Result := single invert rx s

/-- NEG Rx (43_single_operand.md R203). -/
def execNeg (rx : RegNum) (s : State) : Result := single negate rx s

end Sys2Proof.Machine
end

