-- ==== Sys2Proof/Machine/System.lean ====
section
/-! DEFINITION. NOP, FSH, SWI, RETI and HLT (47_system.md). -/

namespace Sys2Proof.Machine

/-- NOP: only the PC advances, which the fetch has done (47_system.md R271). -/
def execNop (s : State) : Result := .next s

/-- FSH: the recent-write window and the fetch window become empty (47_system.md R272). -/
def execFsh (s : State) : Result := .next (flush s)

/-- SWI: interrupt entry through vector 2, whatever PSW.I; refused in the delay slot of a taken transfer
(47_system.md R273, 45_control_flow.md R243). -/
def execSwi (s : State) : Result :=
  if s.inSlot then .refused .transferInSlot else .next (interruptEntry .swi s)

/-- RETI: return from interrupt; refused in the delay slot of a taken transfer (47_system.md R274,
45_control_flow.md R243). -/
def execReti (s : State) : Result :=
  if s.inSlot then .refused .transferInSlot else .next (interruptReturn s)

/-- HLT: the processor stops until reset (47_system.md R276). -/
def execHlt (s : State) : Result := .next s.halt

end Sys2Proof.Machine
end

