-- ==== Sys2Proof/Machine/Dispatch.lean ====
section
/-! DEFINITION. The meaning of every instruction, one arm per row of spec/opcode_table.json. -/

namespace Sys2Proof.Machine

-- An instruction executes in the state its fetch left: the PC already at X + 1 (10_state.md R24, log 20).
def exec (i : Instr) (s : State) : Host.Outcome State Fault Refusal :=
  match i with
  | .ldi imm => Sys2Proof.Machine.execLdi imm s
  | .ld rd rb off => Sys2Proof.Machine.execLd rd rb off s
  | .st rd rb off => Sys2Proof.Machine.execSt rd rb off s
  | .addR rd rs => Sys2Proof.Machine.execAddR rd rs s
  | .addI rd imm => Sys2Proof.Machine.execAddI rd imm s
  | .anwR rd rs => Sys2Proof.Machine.execAnwR rd rs s
  | .anwI rd imm => Sys2Proof.Machine.execAnwI rd imm s
  | .subR rd rs => Sys2Proof.Machine.execSubR rd rs s
  | .subI rd imm => Sys2Proof.Machine.execSubI rd imm s
  | .cmpR rd rs => Sys2Proof.Machine.execCmpR rd rs s
  | .cmpI rd imm => Sys2Proof.Machine.execCmpI rd imm s
  | .andR rd rs => Sys2Proof.Machine.execAndR rd rs s
  | .andI rd imm => Sys2Proof.Machine.execAndI rd imm s
  | .tstR rd rs => Sys2Proof.Machine.execTstR rd rs s
  | .tstI rd imm => Sys2Proof.Machine.execTstI rd imm s
  | .orR rd rs => Sys2Proof.Machine.execOrR rd rs s
  | .orI rd imm => Sys2Proof.Machine.execOrI rd imm s
  | .onwR rd rs => Sys2Proof.Machine.execOnwR rd rs s
  | .onwI rd imm => Sys2Proof.Machine.execOnwI rd imm s
  | .xorR rd rs => Sys2Proof.Machine.execXorR rd rs s
  | .xorI rd imm => Sys2Proof.Machine.execXorI rd imm s
  | .tbcR rd rs => Sys2Proof.Machine.execTbcR rd rs s
  | .tbcI rd imm => Sys2Proof.Machine.execTbcI rd imm s
  | .mul rd rs => Sys2Proof.Machine.execMul rd rs s
  | .mul32 rd rs => Sys2Proof.Machine.execMul32 rd rs s
  | .mnw rd rs => Sys2Proof.Machine.execMnw rd rs s
  | .mnw32 rd rs => Sys2Proof.Machine.execMnw32 rd rs s
  | .div rd rs => Sys2Proof.Machine.execDiv rd rs s
  | .div32 rd rs => Sys2Proof.Machine.execDiv32 rd rs s
  | .dnw rd rs => Sys2Proof.Machine.execDnw rd rs s
  | .dnw32 rd rs => Sys2Proof.Machine.execDnw32 rd rs s
  | .sl rd count => Sys2Proof.Machine.execSl rd count s
  | .slc rd count => Sys2Proof.Machine.execSlc rd count s
  | .sr rd count => Sys2Proof.Machine.execSr rd count s
  | .src rd count => Sys2Proof.Machine.execSrc rd count s
  | .sra rd count => Sys2Proof.Machine.execSra rd count s
  | .sac rd count => Sys2Proof.Machine.execSac rd count s
  | .ror rd count => Sys2Proof.Machine.execRor rd count s
  | .roc rd count => Sys2Proof.Machine.execRoc rd count s
  | .jz target => Sys2Proof.Machine.execJz target s
  | .jnz target => Sys2Proof.Machine.execJnz target s
  | .jc target => Sys2Proof.Machine.execJc target s
  | .jnc target => Sys2Proof.Machine.execJnc target s
  | .jn target => Sys2Proof.Machine.execJn target s
  | .jnn target => Sys2Proof.Machine.execJnn target s
  | .jo target => Sys2Proof.Machine.execJo target s
  | .jno target => Sys2Proof.Machine.execJno target s
  | .lds rd seg rs => Sys2Proof.Machine.execLds rd seg rs s
  | .sts rd seg rs => Sys2Proof.Machine.execSts rd seg rs s
  | .mov rd rs imm => Sys2Proof.Machine.execMov rd rs imm s
  | .amv rd rs => Sys2Proof.Machine.execAmv rd rs s
  | .lsi rd imm => Sys2Proof.Machine.execLsi rd imm s
  | .swb rx => Sys2Proof.Machine.execSwb rx s
  | .inv rx => Sys2Proof.Machine.execInv rx s
  | .neg rx => Sys2Proof.Machine.execNeg rx s
  | .jml rx => Sys2Proof.Machine.execJml rx s
  | .srs rx => Sys2Proof.Machine.execSrs rx s
  | .srd rx => Sys2Proof.Machine.execSrd rx s
  | .ers rx => Sys2Proof.Machine.execErs rx s
  | .erd rx => Sys2Proof.Machine.execErd rx s
  | .set imm => Sys2Proof.Machine.execSet imm s
  | .clr imm => Sys2Proof.Machine.execClr imm s
  | .set2 imm => Sys2Proof.Machine.execSet2 imm s
  | .clr2 imm => Sys2Proof.Machine.execClr2 imm s
  | .mvsFrom rd seg => Sys2Proof.Machine.execMvsFrom rd seg s
  | .mvsTo seg rd => Sys2Proof.Machine.execMvsTo seg rd s
  | .smvApc rd => Sys2Proof.Machine.execSmvApc rd s
  | .smvApsw rd => Sys2Proof.Machine.execSmvApsw rd s
  | .smvPsw rd => Sys2Proof.Machine.execSmvPsw rd s
  | .smvAcs rd => Sys2Proof.Machine.execSmvAcs rd s
  | .nop => Sys2Proof.Machine.execNop s
  | .fsh => Sys2Proof.Machine.execFsh s
  | .swi => Sys2Proof.Machine.execSwi s
  | .reti => Sys2Proof.Machine.execReti s
  | .hlt => Sys2Proof.Machine.execHlt s

end Sys2Proof.Machine
end

