-- ==== Sys2Proof/Machine/Sequence.lean ====
section
/-! DEFINITION. The sequencing of one step (10_state.md R26): the boundary's events in their order of priority
(60_exceptions.md R325), then one instruction. -/

namespace Sys2Proof.Machine

/-- Fetch, decode and execute one instruction, and finish the delay slot it stood in (10_state.md R26). -/
def runInstruction (s : State) : Result :=
  match fetchNext s with
  | (none, _) => .fault .fetchUnwritten
  | (some w, s') =>
    match decode w with
    | .error why => .refused (.reserved why)
    | .ok i => finishSlot s.dly (exec i (advancePc s'))

/-- One boundary: reset first; a halted machine changes nothing; then the hardware interrupt; then an
instruction (60_exceptions.md R324, R325, 47_system.md R276, 70_reset_and_hazards.md R360). -/
def boundaryStep (s : State) : Result :=
  if s.boundary.reset then .next (resetEvent s.nextBoundary)
  else if s.halted then .next s.nextBoundary
  else if acceptsInterrupt s then .next (interruptEntry .hardware s.nextBoundary)
  else runInstruction s.nextBoundary

end Sys2Proof.Machine
end

