-- ==== Sys2Proof/Machine/Step.lean ====
section
/-! DEFINITION. The step of the machine, and the placing of a word where the next step fetches. -/

namespace Sys2Proof.Machine

/-- One step of the processor (10_state.md R26). -/
def step : State → Host.Outcome State Fault Refusal := boundaryStep

/-- The state with the instruction word `w` (its low `nbits` bits, the rest zero) where the next step fetches
(log 17). -/
def State.withFetchWord (s : State) (nbits w : Nat) : State :=
  placeFetchWord s (BitVec.ofNat 16 (w % 2 ^ nbits))

end Sys2Proof.Machine
end

