-- ==== Sys2Proof/Safety.lean ====
section
/-! DEFINITION. The terms claims are made in: the invariants of the machine, what a safe run is, what an
instruction leaves unchanged, and where the spec lets an instruction stop. -/

namespace Sys2Proof.Safety

open Sys2Proof.Machine

/-! ## Invariants -/

/-- The memory list has its canonical form (log 1). -/
def MemoryCanonical (s : State) : Prop := s.mem.wf = true

/-- The S bits agree with the view: PSW_n.S = 0, and PSW_s.S = 1 while the shadow view is active
(10_state.md R31, R32). -/
def ViewBits (s : State) : Prop :=
  pswS s.normal.psw = false ∧ (s.view = .shadow → pswS s.shadow.psw = true)

/-- Every byte of the boot ROM reads as R362 lists it (70_reset_and_hazards.md R362). -/
def RomIntact (s : State) : Prop := ∀ c, 2 * bootRomBase ≤ c → readCell s.mem c = unlistedByte c

/-- The windows hold writes of R0 to R14 and stores to ordinary memory, none older than the parameters say
(10_state.md R34). -/
def WindowsBounded (s : State) : Prop :=
  (∀ e ∈ s.recent, e.reg ≠ 15 ∧ e.age ≤ s.cfg.archReadWindow) ∧
  (∀ e ∈ s.stored, e.addr.toNat < 0xE0000 ∧ e.age ≤ s.cfg.fetchWindow)

/-- The invariant of the machine. -/
structure Inv (s : State) : Prop where
  memory : MemoryCanonical s
  view : ViewBits s
  rom : RomIntact s
  windows : WindowsBounded s

/-! ## Runs -/

/-- A run of `n` steps that meets no fault and no refusal: the spec gives every one of its steps a meaning. -/
def SafeRun (n : Nat) (s : State) : Prop := ∃ t, Sys2Proof.core.run n s = .next t

/-- The environment asserts no reset at the coming boundary. -/
def NoReset (s : State) : Prop := s.boundary.reset = false

/-- The environment asserts no reset at any coming boundary. -/
def NeverReset (s : State) : Prop := ∀ b ∈ s.env, b.reset = false

/-- The coming boundary runs an instruction: no reset, not halted, no hardware interrupt (60_exceptions.md R324,
R325). -/
def RunsInstruction (s : State) : Prop :=
  s.boundary.reset = false ∧ s.halted = false ∧ ¬(s.boundary.irq = true ∧ pswI s.psw = true ∧ s.dly = none)

/-- Ordinary memory: the Home Segment (20_memory.md R66, R71). -/
def IsHome (a : PhysAddr) : Prop := a.toNat < 0xE0000

/-- The graphics segment and the I/O segment less the boot ROM: the platform's (20_memory.md R71). -/
def IsPlatform (a : PhysAddr) : Prop := 0xE0000 ≤ a.toNat ∧ a.toNat < 0xFFFF0

/-- The boot ROM (20_memory.md R66, R73). -/
def IsRom (a : PhysAddr) : Prop := 0xFFFF0 ≤ a.toNat

/-! ## What an instruction leaves unchanged -/

/-- The two byte cells of a memory word (log 1). -/
def InWord (a : PhysAddr) (c : Nat) : Prop := c = 2 * a.toNat ∨ c = 2 * a.toNat + 1

/-- Every byte of memory reads as before. -/
def MemKept (s t : State) : Prop := ∀ c, readCell t.mem c = readCell s.mem c

/-- Every register but R15 reads as before, and no write was noted. -/
def RegsKept (s t : State) : Prop := (∀ r, r ≠ 15 → t.reg r = s.reg r) ∧ t.recent = s.recent

/-- What every instruction but JML's and the interrupts' transfers keeps at once: the fetch has moved the PC, and
the instruction moves nothing of it; the inactive bank, the view, the segments, the halt, the parameters and the
boundary inputs. -/
structure CoreKept (s t : State) : Prop where
  pc : t.pc = s.pc
  cs : t.cs = s.cs
  view : t.view = s.view
  inactive : t.inactive = s.inactive
  ds : t.ds = s.ds
  ss : t.ss = s.ss
  es : t.es = s.es
  halted : t.halted = s.halted
  cfg : t.cfg = s.cfg
  env : t.env = s.env

/-- No memory word, no platform output and no store note changes. -/
structure NoStore (s t : State) : Prop where
  mem : MemKept s t
  platformOut : t.platformOut = s.platformOut
  stored : t.stored = s.stored

/-- No input is consumed: no platform answer, no free value. -/
structure NoInput (s t : State) : Prop where
  platformIn : t.platformIn = s.platformIn
  draws : t.draws = s.draws

/-- The frame of an instruction that works on registers and the PSW alone. -/
structure Frame (s t : State) : Prop where
  core : CoreKept s t
  store : NoStore s t
  input : NoInput s t

/-- Register `r` received `v` and no other register changed. R15 receives a value as a delayed transfer
(10_state.md R25); the others note the write in the recent-write window (R34). -/
def Dest (r : RegNum) (v : Word) (s t : State) : Prop :=
  if r = 15 then t.dly = some ⟨none, v⟩ ∧ RegsKept s t
  else t.reg r = v ∧ (∀ r', r' ≠ 15 → r' ≠ r → t.reg r' = s.reg r') ∧ t.dly = s.dly ∧
    t.recent = ⟨r, s.reg r, 0⟩ :: s.recent

/-- No register received anything. -/
def NoDest (s t : State) : Prop := RegsKept s t ∧ t.dly = s.dly

/-- The active PSW after an instruction: the four condition flags as named, the other twelve bits as before
(10_state.md R29, 41_alu.md R152). -/
structure Flags (s t : State) (n z v c : Bool) : Prop where
  n : pswN t.psw = n
  z : pswZ t.psw = z
  v : pswV t.psw = v
  c : pswC t.psw = c
  rest : ∀ i, 4 ≤ i → t.psw.getLsbD i = s.psw.getLsbD i

/-- The instruction completes, `r` receives `v`, the active PSW is left alone, nothing else changes. -/
def Gives (o : Result) (s : State) (r : RegNum) (v : Word) : Prop :=
  ∃ t, o = .next t ∧ Dest r v s t ∧ t.psw = s.psw ∧ Frame s t

/-- The instruction completes, `r` receives `v`, the flags are as named, nothing else changes. -/
def GivesFlags (o : Result) (s : State) (r : RegNum) (value : Word) (n z v c : Bool) : Prop :=
  ∃ t, o = .next t ∧ Dest r value s t ∧ Flags s t n z v c ∧ Frame s t

/-- C after a shift by `n` that writes it, in the value of ShiftNumerics the machine has: `last` is the last bit shifted
out, `edge` the operand's bit at the end the shift moves towards, `old` C before (42_shift.md R181, log 11). -/
def shiftC (nm : ShiftNumerics) (n : Nat) (last edge old : Bool) : Bool :=
  if n ≠ 0 then (if nm.carryOut = .lastOut then last else edge)
  else if nm.zeroFlags = .carryEdge then edge
  else if nm.zeroFlags = .carryCleared then false
  else old

/-- The carry-in term of SRC, SAC and ROC, `cin` the old carry as a word: at the place ShiftNumerics names, and at a
count of 0 only where it says so (42_shift.md R181, log 11). -/
def shiftCin (nm : ShiftNumerics) (n : Nat) (cin : Word) : Word :=
  if n = 0 ∧ nm.zeroCarryIn = false then 0
  else cin <<< (if nm.carryInPlace = .printed then 15 - n else 16 - n)

/-- A shift by `n` completes: `r` receives `v`, N and Z are of it, but for a count of 0 where ShiftNumerics says that
such a shift writes no flag, C is `c`, nothing else changes (42_shift.md R181, R182, log 11). -/
def GivesShift (o : Result) (s : State) (r : RegNum) (n : Nat) (v : Word) (c : Bool) : Prop :=
  if n = 0 ∧ s.cfg.shiftNumerics.zeroFlags = .flagsKept then
    GivesFlags o s r v (pswN s.psw) (pswZ s.psw) (pswV s.psw) c
  else GivesFlags o s r v v.msb (v == 0) (pswV s.psw) c

/-- The instruction completes, the flags are as named, nothing else changes. -/
def FlagsOnly (o : Result) (s : State) (n z v c : Bool) : Prop :=
  ∃ t, o = .next t ∧ NoDest s t ∧ Flags s t n z v c ∧ Frame s t

/-- The register pair `r`, `r + 1` received `lo` and `hi`; with `r` = 14 the second write is a delayed transfer
(41_alu.md R165). -/
def DestPair (r : RegNum) (lo hi : Word) (s t : State) : Prop :=
  ∃ m, Dest r lo s m ∧ Dest (r + 1) hi m t

/-- Register `r` can be named as an operand: R15 only outside the delay slot of a taken transfer
(45_control_flow.md R242, R243). -/
def Usable (s : State) (r : RegNum) : Prop := r = 15 → s.dly = none

/-! ## What loads and stores give -/

/-- The instruction completes, `r` receives the next free word, one free value is drawn, nothing else changes
(log 5). -/
def GivesDrawn (o : Result) (s : State) (r : RegNum) : Prop :=
  ∃ t, o = .next t ∧ Dest r (Config.freeWord s.draws) s t ∧ t.psw = s.psw ∧ CoreKept s t ∧ NoStore s t ∧
    t.platformIn = s.platformIn ∧ t.draws = s.draws + 1

/-- The instruction completes, `r` receives the platform's next answer `w`, which is consumed, nothing else changes
(20_memory.md R71, log 7). -/
def GivesAnswer (o : Result) (s : State) (r : RegNum) (w : Word) (ws : List Word) : Prop :=
  ∃ t, o = .next t ∧ Dest r w s t ∧ t.psw = s.psw ∧ CoreKept s t ∧ NoStore s t ∧ t.platformIn = ws ∧
    t.draws = s.draws

/-- A load of physical address `a` into `r`: a word of memory or of the boot ROM; a free value where nothing has been
written; the platform's answer, or a free value where it has given none (20_memory.md R71, R75, 10_state.md R36,
logs 4 and 7). -/
structure Loads (o : Result) (s : State) (r : RegNum) (a : PhysAddr) : Prop where
  word : ¬IsPlatform a → ∀ w, readWord s.mem a = some w → Gives o s r w
  unwritten : ¬IsPlatform a → readWord s.mem a = none → GivesDrawn o s r
  answer : IsPlatform a → ∀ w ws, s.platformIn = w :: ws → GivesAnswer o s r w ws
  silent : IsPlatform a → s.platformIn = [] → GivesDrawn o s r

/-- A store of `v` at physical address `a`: ordinary memory takes the word at the two bytes of `a`, every other byte
stays, and the fetch window notes the word replaced; the platform takes an event and memory stays; the boot ROM
refuses (20_memory.md R71, R73, R78). -/
structure Stores (o : Result) (s : State) (v : Word) (a : PhysAddr) : Prop where
  home : IsHome a → ∃ t, o = .next t ∧ NoDest s t ∧ t.psw = s.psw ∧ CoreKept s t ∧ NoInput s t ∧
    readWord t.mem a = some v ∧ (∀ c, ¬InWord a c → readCell t.mem c = readCell s.mem c) ∧
    t.platformOut = s.platformOut ∧ t.stored = ⟨a, readWord s.mem a, 0⟩ :: s.stored
  platform : IsPlatform a → ∃ t, o = .next t ∧ NoDest s t ∧ t.psw = s.psw ∧ CoreKept s t ∧ NoInput s t ∧
    MemKept s t ∧ t.platformOut = s.platformOut ++ [⟨a, v⟩] ∧ t.stored = s.stored
  rom : IsRom a → o = .refused .romStore

/-- Register `rb` is in the set of the selector `sel` with dual bit `dual`: `sel` itself, with the dual bit the other
of an even `sel`'s pair, and of an odd one's in the reading DualPairOdd names; no register is in the set of selector 0
(44_memory_access.md R212, R213). -/
def InSet (odd : DualPairOdd) (sel : RegNum) (dual : Bool) (rb : RegNum) : Prop :=
  sel ≠ 0 ∧ (rb = sel ∨ dual = true ∧
    (sel.getLsbD 0 = false ∧ rb = sel + 1 ∨
     sel.getLsbD 0 = true ∧ (odd = .xorOne ∧ rb = sel - 1 ∨ odd = .plusOne ∧ rb = sel + 1)))

/-- Whether `rb` is in the set is refused: a neighbour of an odd selector with its dual bit, at the parameter's
default (44_memory_access.md R213). -/
def SetRefused (odd : DualPairOdd) (sel : RegNum) (dual : Bool) (rb : RegNum) : Prop :=
  sel ≠ 0 ∧ dual = true ∧ sel.getLsbD 0 = true ∧ odd = .refuse ∧ (rb = sel - 1 ∨ rb = sel + 1)

/-- `i` is an ST or STS of register `rd` through the address register `rb`, and `a` is the physical address it names
(44_memory_access.md R211, R215, R217). -/
def StoresTo (i : Instr) (s : State) (rd rb : RegNum) (a : PhysAddr) : Prop :=
  (∃ off g, i = .st rd rb off ∧ implicitSeg s rb = some g ∧ a = phys (s.seg g) (s.reg rb + off.setWidth 16)) ∨
  (∃ g, i = .sts rd g rb ∧ a = phys (s.seg g) (s.reg rb))

/-- `i` is an LD or LDS into register `rd` through the address register `rb`, and `a` is the physical address it names
(44_memory_access.md R211, R214, R216). -/
def LoadsFrom (i : Instr) (s : State) (rd rb : RegNum) (a : PhysAddr) : Prop :=
  (∃ off g, i = .ld rd rb off ∧ implicitSeg s rb = some g ∧ a = phys (s.seg g) (s.reg rb + off.setWidth 16)) ∨
  (∃ g, i = .lds rd g rb ∧ a = phys (s.seg g) (s.reg rb))

/-! ## The fetch -/

/-- The fetch at CS:PC reads `w`: the address is not the platform's, no store the fetch window still holds went
there, and memory holds `w` (20_memory.md R64, R78). -/
def Fetches (s : State) (w : Word) : Prop :=
  ¬IsPlatform (phys s.cs s.pc) ∧
  (∀ e ∈ s.stored, e.addr = phys s.cs s.pc → s.cfg.fetchWindow ≤ e.age) ∧
  readWord s.mem (phys s.cs s.pc) = some w

/-- The state an instruction executes in after its fetch: PC at X + 1 (10_state.md R24, R26), the boundary input
sampled, every noted write one instruction older and those beyond the windows dropped (R34). -/
def readied (s : State) : State :=
  { s.setPc (s.pc + 1) with
    env := s.env.tail
    recent := (s.recent.map fun e => { e with age := e.age + 1 }).filter fun e => decide (e.age ≤ s.cfg.archReadWindow)
    stored := (s.stored.map fun e => { e with age := e.age + 1 }).filter fun e => decide (e.age ≤ s.cfg.fetchWindow) }

/-- The state after an instruction that stood in the delay slot of the pending transfer `d`, none outside a slot: the
PC takes the target and, for a far jump, CS its new value (10_state.md R25, R26). -/
def AfterSlot (d : Option Transfer) (o : Result) : Result :=
  match d, o with
  | none, o => o
  | some ⟨none, t⟩, .next m => .next { m.setPc t with dly := none }
  | some ⟨some c, t⟩, .next m => .next { (m.setPc t).setCs c with dly := none }
  | some _, .fault f => .fault f
  | some _, .refused r => .refused r

/-! ## Where the spec lets an instruction stop -/

/-- The registers an instruction reads as source operands; the architectural read of MOV imm2 = 3 is not one of
them (45_control_flow.md R242). -/
def sources : Instr → List RegNum
  | .ldi _ => []
  | .ld _ rb _ => [rb]
  | .st rd rb _ => [rd, rb]
  | .addR rd rs => [rd, rs]
  | .addI rd _ => [rd]
  | .anwR rd rs => [rd, rs]
  | .anwI rd _ => [rd]
  | .subR rd rs => [rd, rs]
  | .subI rd _ => [rd]
  | .cmpR rd rs => [rd, rs]
  | .cmpI rd _ => [rd]
  | .andR rd rs => [rd, rs]
  | .andI rd _ => [rd]
  | .tstR rd rs => [rd, rs]
  | .tstI rd _ => [rd]
  | .orR rd rs => [rd, rs]
  | .orI rd _ => [rd]
  | .onwR rd rs => [rd, rs]
  | .onwI rd _ => [rd]
  | .xorR rd rs => [rd, rs]
  | .xorI rd _ => [rd]
  | .tbcR rd rs => [rd, rs]
  | .tbcI rd _ => [rd]
  | .mul rd rs => [rd, rs]
  | .mul32 rd rs => [rd, rs]
  | .mnw rd rs => [rd, rs]
  | .mnw32 rd rs => [rd, rs]
  | .div rd rs => [rd, rs]
  | .div32 rd rs => [rd, rs]
  | .dnw rd rs => [rd, rs]
  | .dnw32 rd rs => [rd, rs]
  | .sl rd _ => [rd]
  | .slc rd _ => [rd]
  | .sr rd _ => [rd]
  | .src rd _ => [rd]
  | .sra rd _ => [rd]
  | .sac rd _ => [rd]
  | .ror rd _ => [rd]
  | .roc rd _ => [rd]
  | .jz _ => []
  | .jnz _ => []
  | .jc _ => []
  | .jnc _ => []
  | .jn _ => []
  | .jnn _ => []
  | .jo _ => []
  | .jno _ => []
  | .lds _ _ rs => [rs]
  | .sts rd _ rs => [rd, rs]
  | .mov _ rs _ => [rs]
  | .amv _ _ => []
  | .lsi _ _ => []
  | .swb rx => [rx]
  | .inv rx => [rx]
  | .neg rx => [rx]
  | .jml rx => [rx, rx + 1]
  | .srs _ => []
  | .srd _ => []
  | .ers _ => []
  | .erd _ => []
  | .set _ => []
  | .clr _ => []
  | .set2 _ => []
  | .clr2 _ => []
  | .mvsFrom _ _ => []
  | .mvsTo _ rd => [rd]
  | .smvApc _ => []
  | .smvApsw _ => []
  | .smvPsw _ => []
  | .smvAcs _ => []
  | .nop => []
  | .fsh => []
  | .swi => []
  | .reti => []
  | .hlt => []

/-- The registers an instruction writes (10_state.md R23, R25). -/
def dests : Instr → List RegNum
  | .ldi _ => [0]
  | .ld rd _ _ => [rd]
  | .st _ _ _ => []
  | .addR rd _ => [rd]
  | .addI rd _ => [rd]
  | .anwR _ _ => []
  | .anwI _ _ => []
  | .subR rd _ => [rd]
  | .subI rd _ => [rd]
  | .cmpR _ _ => []
  | .cmpI _ _ => []
  | .andR rd _ => [rd]
  | .andI rd _ => [rd]
  | .tstR _ _ => []
  | .tstI _ _ => []
  | .orR rd _ => [rd]
  | .orI rd _ => [rd]
  | .onwR _ _ => []
  | .onwI _ _ => []
  | .xorR rd _ => [rd]
  | .xorI rd _ => [rd]
  | .tbcR _ _ => []
  | .tbcI _ _ => []
  | .mul rd _ => [rd]
  | .mul32 rd _ => [rd, rd + 1]
  | .mnw _ _ => []
  | .mnw32 _ _ => []
  | .div rd _ => [rd]
  | .div32 rd _ => [rd, rd + 1]
  | .dnw _ _ => []
  | .dnw32 _ _ => []
  | .sl rd _ => [rd]
  | .slc rd _ => [rd]
  | .sr rd _ => [rd]
  | .src rd _ => [rd]
  | .sra rd _ => [rd]
  | .sac rd _ => [rd]
  | .ror rd _ => [rd]
  | .roc rd _ => [rd]
  | .jz _ => []
  | .jnz _ => []
  | .jc _ => []
  | .jnc _ => []
  | .jn _ => []
  | .jnn _ => []
  | .jo _ => []
  | .jno _ => []
  | .lds rd _ _ => [rd]
  | .sts _ _ _ => []
  | .mov rd _ _ => [rd]
  | .amv rd _ => [rd]
  | .lsi rd _ => [rd]
  | .swb rx => [rx]
  | .inv rx => [rx]
  | .neg rx => [rx]
  | .jml _ => []
  | .srs _ => []
  | .srd _ => []
  | .ers _ => []
  | .erd _ => []
  | .set _ => []
  | .clr _ => []
  | .set2 _ => []
  | .clr2 _ => []
  | .mvsFrom rd _ => [rd]
  | .mvsTo _ _ => []
  | .smvApc rd => [rd]
  | .smvApsw rd => [rd]
  | .smvPsw rd => [rd]
  | .smvAcs rd => [rd]
  | .nop => []
  | .fsh => []
  | .swi => []
  | .reti => []
  | .hlt => []

/-- The condition of a conditional jump (45_control_flow.md R232 to R239); none for every other instruction. -/
def condition (p : Word) : Instr → Option Bool
  | .jz _ => some (pswZ p)
  | .jnz _ => some (!pswZ p)
  | .jc _ => some (pswC p)
  | .jnc _ => some (!pswC p)
  | .jn _ => some (pswN p)
  | .jnn _ => some (!pswN p)
  | .jo _ => some (pswV p)
  | .jno _ => some (!pswV p)
  | _ => none

/-- The far jump (45_control_flow.md R240). -/
def isFarJump : Instr → Bool
  | .jml _ => true
  | _ => false

/-- The control transfers of 45_control_flow.md R243 (a) to (e): a conditional jump whose condition holds, JML, an
instruction that writes R15, SWI, RETI. -/
def Transfers (i : Instr) (p : Word) : Prop :=
  condition p i = some true ∨ isFarJump i = true ∨ (15 : RegNum) ∈ dests i ∨ i = .swi ∨ i = .reti

/-- The physical address an LD or ST accesses, none where the dual pair is undecidable (44_memory_access.md R211,
R212). -/
def implicitAddress (s : State) (rb : RegNum) (off : BitVec 5) : Option PhysAddr :=
  (implicitSeg s rb).map fun g => phys (s.seg g) (effectiveOffset (s.reg rb) off)

/-- The situations in which the spec refuses an instruction (93_implementation_defined.md sections 1, 2 and 4): a
transfer or an ordinary read of R15 in a delay slot, an odd pair, PSW bits above 15, a change of S, MVS to CS, an
undecidable dual pair, a store to the boot ROM. -/
def Refuses (i : Instr) (s : State) : Prop :=
  (s.dly ≠ none ∧ (Transfers i s.psw ∨ (15 : RegNum) ∈ sources i)) ∨
  (∃ rd rs, (i = .mul32 rd rs ∨ i = .mnw32 rd rs ∨ i = .div32 rd rs ∨ i = .dnw32 rd rs) ∧ rd.getLsbD 0 = true) ∨
  (∃ rx, i = .jml rx ∧ rx.getLsbD 0 = true) ∨
  (∃ n : BitVec 4, (i = .set2 n ∨ i = .clr2 n) ∧ 12 ≤ n.toNat) ∨
  ((i = .set 5 ∨ i = .set2 1) ∧ pswS s.psw = false) ∨
  ((i = .clr 5 ∨ i = .clr2 1) ∧ pswS s.psw = true) ∨
  (∃ rd, i = .mvsTo .cs rd) ∨
  (∃ rd rb off, (i = .ld rd rb off ∨ i = .st rd rb off) ∧ implicitSeg s rb = none) ∨
  (∃ rd rb off a, i = .st rd rb off ∧ implicitAddress s rb off = some a ∧ IsRom a) ∨
  (∃ rd g rs, i = .sts rd g rs ∧ IsRom (phys (s.seg g) (s.reg rs)))

/-- The PSW bits an instruction may write (10_state.md R30, 41_alu.md R152, 42_shift.md R182, 46_psw_ops.md R250,
R256); C of ROR and ROC only where ShiftNumerics says so (log 11). SWI and RETI switch the view instead. -/
def pswWrites (cfg : Params) : Instr → List Nat
  | .addR _ _ | .addI _ _ | .anwR _ _ | .anwI _ _ | .subR _ _ | .subI _ _ | .cmpR _ _ | .cmpI _ _ => [0, 1, 2, 3]
  | .andR _ _ | .andI _ _ | .tstR _ _ | .tstI _ _ | .orR _ _ | .orI _ _ | .onwR _ _ | .onwI _ _ => [0, 1]
  | .xorR _ _ | .xorI _ _ | .tbcR _ _ | .tbcI _ _ => [0, 1]
  | .mul _ _ | .mul32 _ _ | .mnw _ _ | .mnw32 _ _ | .div _ _ | .div32 _ _ | .dnw _ _ | .dnw32 _ _ => [0, 1]
  | .sl _ _ | .slc _ _ | .sr _ _ | .src _ _ | .sra _ _ | .sac _ _ => [0, 1, 3]
  | .ror _ _ | .roc _ _ => if cfg.shiftNumerics.rotateCarry then [0, 1, 3] else [0, 1]
  | .srs _ | .srd _ => [6, 7, 8, 9, 10]
  | .ers _ | .erd _ => [11, 12, 13, 14, 15]
  | .set n | .clr n => [n.toNat]
  | .set2 n | .clr2 n => [n.toNat + 4]
  | _ => []

/-- The instructions that write memory or the platform (20_memory.md R65). -/
def isStore : Instr → Bool
  | .st _ _ _ | .sts _ _ _ => true
  | _ => false

/-- The instructions that read memory or the platform as data; SWI reads its vector (20_memory.md R65). -/
def isLoad : Instr → Bool
  | .ld _ _ _ | .lds _ _ _ | .swi => true
  | _ => false

end Sys2Proof.Safety
end

