-- ==== Sys2Proof/Certificates/Slice0/Obligations.lean ====
section
/-! DEFINITION. The statements for the provers, from the numbered rules of spec/. The terms they are written in
(Gives, Frame, Dest, Loads, Stores, Transfers, Refuses, the invariants) are defined in Sys2Proof/Safety.lean. An
instruction executes in the state its fetch left, the PC already at X + 1 (10_state.md R24, log 20): `s.pc` and
`s.reg 15` are X + 1. -/

section Statements

open Sys2Proof Sys2Proof.Machine Sys2Proof.Safety

/-! ## Encoding -/

/-- Decoding the word of any well-formed instruction gives the instruction back (30_encoding.md R91 to R107). -/
def Obligations.DecodeOfEncode : Prop :=
  ∀ i : Instr, i.wellFormed = true → decode (encode i) = .ok i

/-- What a word decodes to is well-formed and encodes to that word: no bit of a word is dropped (30_encoding.md
R91 to R107). -/
def Obligations.EncodeOfDecode : Prop :=
  ∀ (w : Word) (i : Instr), decode w = .ok i → i.wellFormed = true ∧ encode i = w

/-- The words that encode no instruction are the six ranges of 30_encoding.md R120, a step that fetches one, from
memory or as the platform's next answer (log 7), is refused by the decoder's name for it, and every other word is the
word of exactly one instruction. -/
def Obligations.ReservedWords : Prop :=
  (∀ w : Word, (∃ why, decode w = .error why) ↔
    (0xFE30 ≤ w.toNat ∧ w.toNat ≤ 0xFE3F) ∨ (0xFE50 ≤ w.toNat ∧ w.toNat ≤ 0xFE7F) ∨
    (0xFFC0 ≤ w.toNat ∧ w.toNat ≤ 0xFFDF) ∨ (0xFFE0 ≤ w.toNat ∧ w.toNat ≤ 0xFFEF) ∨
    (0xFFF4 ≤ w.toNat ∧ w.toNat ≤ 0xFFF7) ∨ (0xFFF8 ≤ w.toNat ∧ w.toNat ≤ 0xFFFE)) ∧
  (∀ w : Word, (∀ why, decode w ≠ .error why) → ∃! i : Instr, i.wellFormed = true ∧ encode i = w) ∧
  (∀ (s : State) (w : Word) (why : Reserved), RunsInstruction s → Fetches s w → decode w = .error why →
    step s = .refused (.reserved why)) ∧
  (∀ (s : State) (w : Word) (ws : List Word) (why : Reserved), RunsInstruction s → IsPlatform (phys s.cs s.pc) →
    s.platformIn = w :: ws → decode w = .error why → step s = .refused (.reserved why))

/-- Words written out in the spec decode to the instructions it names beside them (70_reset_and_hazards.md R362 and
the examples of files 40 to 47). -/
def Obligations.SampleWordsDecode : Prop :=
  decode 0x0FFF = .ok (.ldi 0x0FFF) ∧ decode 0xFC21 = .ok (.lsi 1 1) ∧ decode 0xFBBE = .ok (.mov 14 15 2) ∧
  decode 0xFBBF = .ok (.amv 14 15) ∧ decode 0xFF0D = .ok (.mvsFrom 3 .ds) ∧ decode 0xFF42 = .ok (.mvsTo .ss 0) ∧
  decode 0xFFA5 = .ok (.smvPsw 5) ∧ decode 0xC062 = .ok (.addR 1 2) ∧ decode 0xC091 = .ok (.anwI 2 1) ∧
  decode 0xD536 = .ok (.mul32 4 6) ∧ decode 0xDC69 = .ok (.sac 1 1) ∧ decode 0xFE22 = .ok (.neg 2) ∧
  decode 0xBD83 = .ok (.st 14 12 3) ∧ decode 0xF779 = .ok (.sts 7 .es 9) ∧ decode 0xE3FD = .ok (.jnz 0x1FD) ∧
  decode 0xFE40 = .ok (.jml 0) ∧ decode 0xFEBA = .ok (.erd 10) ∧ decode 0xFEE0 = .ok (.set2 0) ∧
  decode 0xFFF1 = .ok .fsh ∧ decode 0xFFFF = .ok .hlt

/-! ## The step -/

/-- A boundary that runs an instruction runs the one its fetch decodes to, with the PC at X + 1 and the windows one
instruction older; in a delay slot the pending transfer then completes (10_state.md R24, R26). The word comes from
memory or, at a platform address, is the platform's next answer (20_memory.md R71); where nothing has been written
the model faults (log 4). -/
def Obligations.StepRunsDecodedInstruction : Prop :=
  (∀ (s : State) (w : Word) (i : Instr), RunsInstruction s → Fetches s w → decode w = .ok i →
    step s = AfterSlot s.dly (exec i (readied s))) ∧
  (∀ (s : State) (w : Word) (ws : List Word) (i : Instr), RunsInstruction s → IsPlatform (phys s.cs s.pc) →
    s.platformIn = w :: ws → decode w = .ok i →
    step s = AfterSlot s.dly (exec i { readied s with platformIn := ws })) ∧
  (∀ s : State, RunsInstruction s → ¬IsPlatform (phys s.cs s.pc) →
    (∀ e ∈ s.stored, e.addr = phys s.cs s.pc → s.cfg.fetchWindow ≤ e.age) →
    readWord s.mem (phys s.cs s.pc) = none → step s = .fault .fetchUnwritten)

/-- The instruction after a taken transfer executes once, and then PC, and for a far jump CS, take their new values
(10_state.md R25, R26, 45_control_flow.md R241). -/
def Obligations.DelaySlotCompletesTransfer : Prop :=
  ∀ (s t : State) (d : Transfer), NoReset s → s.halted = false → s.dly = some d → step s = .next t →
    t.pc = d.target ∧ t.cs = d.cs.getD s.cs ∧ t.dly = none ∧ t.view = s.view ∧ t.inactive = s.inactive

/-- Every step samples exactly one boundary input and leaves the parameters alone (60_exceptions.md R323; the input
list and the parameter record are the model's own, logs 6 and 8). -/
def Obligations.EachStepSamplesOneBoundary : Prop :=
  ∀ s t : State, step s = .next t → t.env = s.env.tail ∧ t.cfg = s.cfg

/-! ## Interrupts -/

/-- The hardware interrupt is taken exactly when the processor is not halted, IRQ is true, PSW.I = 1 and no transfer
is pending; otherwise an instruction runs, or a halted processor keeps its state. I = 0 at reset and after entry; SWI
is not subject to the test (60_exceptions.md R324). -/
def Obligations.HardwareInterruptAcceptance : Prop :=
  (∀ s : State, NoReset s →
    (s.halted = false → s.boundary.irq = true → pswI s.psw = true → s.dly = none →
      step s = .next (interruptEntry .hardware s.nextBoundary)) ∧
    (s.halted = false → ¬(s.boundary.irq = true ∧ pswI s.psw = true ∧ s.dly = none) →
      step s = runInstruction s.nextBoundary) ∧
    (s.halted = true → step s = .next s.nextBoundary)) ∧
  pswI State.reset.psw = false ∧
  (∀ (v : EntryVector) (s : State), pswI (interruptEntry v s).psw = false) ∧
  (∀ s : State, s.dly = none → exec .swi s = .next (interruptEntry .swi s))

/-- Interrupt entry: the shadow view becomes active with CS 0, the vector word as PC and a copy of the active PSW
with S = 1 and I = 0; no transfer is pending and both windows are empty; nothing else changes, so the normal bank
keeps the interrupted context, in nested entry too (60_exceptions.md R326, R330). -/
def Obligations.InterruptEntryEffect : Prop :=
  ∀ (v : EntryVector) (a : PhysAddr) (s : State) (w : Word),
    (v = .hardware ∧ a = 0x00001 ∨ v = .swi ∧ a = 0x00002) → readWord s.mem a = some w →
    ∃ p : Word, pswS p = true ∧ pswI p = false ∧ (∀ j, j ≠ 4 → j ≠ 5 → p.getLsbD j = s.psw.getLsbD j) ∧
      interruptEntry v s = { s with
        view := .shadow, shadow := ⟨w, 0x0000, p⟩, dly := none, recent := [], stored := [] }

/-- SWI enters through word 2 whatever PSW.I is, in either view; the interrupted bank holds X + 1, its CS and its
PSW. In a delay slot it is refused. With nothing in the vector word the handler's offset is a free value (log 4). -/
def Obligations.SwiEntersHandler : Prop :=
  encode .swi = 0xFFF2 ∧
  (∀ (s : State) (w : Word), s.dly = none → readWord s.mem 2 = some w →
    ∃ p : Word, pswS p = true ∧ pswI p = false ∧ (∀ j, j ≠ 4 → j ≠ 5 → p.getLsbD j = s.psw.getLsbD j) ∧
      exec .swi s = .next { s with
        view := .shadow, shadow := ⟨w, 0x0000, p⟩, dly := none, recent := [], stored := [] }) ∧
  (∀ s : State, s.dly = none → readWord s.mem 2 = none →
    ∃ t, exec .swi s = .next t ∧ t.view = .shadow ∧ t.shadow.pc = Config.freeWord s.draws ∧ t.shadow.cs = 0 ∧
      t.normal = s.normal ∧ t.regs = s.regs ∧ t.mem = s.mem ∧ t.draws = s.draws + 1) ∧
  (∀ s : State, s.dly ≠ none → exec .swi s = .refused .transferInSlot)

/-- RETI makes the normal view active and flushes both windows; it copies nothing and writes no bit; in the normal
view it is FSH. In a delay slot it is refused. So an SWI from the normal view, whatever its handler does to the rest,
is returned from to X + 1 under the same CS and PSW (47_system.md R274, 60_exceptions.md R329). -/
def Obligations.RetiReturns : Prop :=
  encode .reti = 0xFFF3 ∧
  (∀ s : State, s.dly = none →
    exec .reti s = .next { s with view := .normal, recent := [], stored := [] }) ∧
  (∀ s : State, s.dly = none → s.view = .normal → exec .reti s = exec .fsh s) ∧
  (∀ s : State, s.dly ≠ none → exec .reti s = .refused .transferInSlot) ∧
  (∀ s t u r : State, s.view = .normal → exec .swi s = .next t → u.normal = t.normal → exec .reti u = .next r →
    r.pc = s.pc ∧ r.cs = s.cs ∧ r.psw = s.psw)

/-- No instruction writes an alternate register, SWI's entry excepted; so no step of a handler changes the offset, the
CS or the PSW that RETI returns to (40_data_movement.md R142). -/
def Obligations.HandlerKeepsInterruptedContext : Prop :=
  (∀ (i : Instr) (s t : State), exec i s = .next t → i ≠ .swi →
    (t.view = s.view ∧ t.inactive = s.inactive) ∨ (i = .reti ∧ t.normal = s.normal ∧ t.shadow = s.shadow)) ∧
  (∀ s t : State, NoReset s → s.view = .shadow → step s = .next t → t.normal = s.normal)

/-- The inactive bank is written only by interrupt entry: a step that keeps the view keeps it (10_state.md R31,
R33). -/
def Obligations.InactiveBankKept : Prop :=
  ∀ s t : State, NoReset s → step s = .next t → t.view = s.view → t.inactive = s.inactive

/-! ## Invariants -/

/-- Every step keeps PSW_n.S = 0 and PSW_s.S = 1 in the shadow view; once PSW_s.S = 1 it stays so until reset
(10_state.md R31, R32). -/
def Obligations.ViewBitsKept : Prop :=
  (∀ s t : State, ViewBits s → step s = .next t → ViewBits t) ∧
  (∀ s t : State, NoReset s → pswS s.shadow.psw = true → step s = .next t → pswS t.shadow.psw = true)

/-- Every step keeps the canonical form of the memory list (log 1). -/
def Obligations.MemoryCanonicalKept : Prop :=
  ∀ s t : State, MemoryCanonical s → step s = .next t → MemoryCanonical t

/-- Every step keeps the boot ROM's contents (20_memory.md R66, R73, 70_reset_and_hazards.md R362). -/
def Obligations.BootRomKept : Prop :=
  ∀ s t : State, RomIntact s → step s = .next t → RomIntact t

/-- Every step keeps the two windows within the bounds the parameters set (10_state.md R34). -/
def Obligations.WindowsBoundedKept : Prop :=
  ∀ s t : State, WindowsBounded s → step s = .next t → WindowsBounded t

/-- The reset state has the invariants the four statements above keep (10_state.md R35). -/
def Obligations.ResetMeetsInvariants : Prop := Inv State.reset

/-- HLT halts, in a delay slot too, and a halted processor keeps its state for as long as no reset comes, whatever
IRQ does (47_system.md R276). -/
def Obligations.HaltIsTerminal : Prop :=
  encode .hlt = 0xFFFF ∧
  (∀ s : State, exec .hlt s = .next { s with halted := true }) ∧
  (∀ (n : Nat) (s : State), s.halted = true → NeverReset s →
    Sys2Proof.core.run n s = .next { s with env := s.env.drop n })

/-! ## Reset -/

/-- The reset values the spec gives: PC, CS and PSW of the normal view, the segments, SP, no pending transfer, not
halted, empty windows, the sixteen boot ROM words, the fetch at 0xFFFF0 (10_state.md R35, 70_reset_and_hazards.md
R361, R362). The values of R0 to R12, R14 and the shadow bank are the model's (logs 2 and 3) and are not stated. -/
def Obligations.ResetValues : Prop :=
  State.reset.view = .normal ∧ State.reset.pc = 0x0000 ∧ State.reset.cs = 0xFFFF ∧ State.reset.psw = 0x0000 ∧
  State.reset.ds = 0x1000 ∧ State.reset.ss = 0x8000 ∧ State.reset.es = 0x2000 ∧ State.reset.reg 13 = 0x7FFF ∧
  State.reset.dly = none ∧ State.reset.halted = false ∧ State.reset.recent = [] ∧ State.reset.stored = [] ∧
  phys State.reset.cs State.reset.pc = 0xFFFF0 ∧
  (List.range 16).map (fun k => readWord State.reset.mem (BitVec.ofNat 20 (0xFFFF0 + k))) =
    [some 0x0000, some 0xFF41, some 0xFF42, some 0xFC21, some 0xFE01, some 0xA200, some 0xA201, some 0xA201,
     some 0xFE40, some 0xFFF0, some 0xFFFF, some 0xFFFF, some 0xFFFF, some 0xFFFF, some 0xFFFF, some 0xFFFF]

/-- Reset overrides every other event of its boundary, ends a halt, and gives the spec's reset values from any state
(60_exceptions.md R325, 70_reset_and_hazards.md R360, R361). -/
def Obligations.ResetOverridesEverything : Prop :=
  ∀ s : State, s.boundary.reset = true → ∃ t, step s = .next t ∧
    t.view = .normal ∧ t.normal = ⟨0x0000, 0xFFFF, 0x0000⟩ ∧ t.ds = 0x1000 ∧ t.ss = 0x8000 ∧ t.es = 0x2000 ∧
    t.reg 13 = 0x7FFF ∧ t.dly = none ∧ t.halted = false ∧ t.recent = [] ∧ t.stored = [] ∧ RomIntact t

/-- From the reset state the boot ROM runs in ten steps as R363 tables it, and hands over at physical 0x00100 with
everything else as after reset: memory lists the two words stored and nothing more, low byte first (log 1)
(70_reset_and_hazards.md R363). -/
def Obligations.BootRomEffect : Prop :=
  (∃ t, Sys2Proof.core.run 1 State.reset = .next t ∧ t.reg 0 = 0x0000 ∧ t.pc = 0x0001) ∧
  (∃ t, Sys2Proof.core.run 2 State.reset = .next t ∧ t.ds = 0x0000 ∧ t.pc = 0x0002) ∧
  (∃ t, Sys2Proof.core.run 3 State.reset = .next t ∧ t.ss = 0x0000 ∧ t.pc = 0x0003) ∧
  (∃ t, Sys2Proof.core.run 4 State.reset = .next t ∧ t.reg 1 = 0x0001 ∧ t.pc = 0x0004) ∧
  (∃ t, Sys2Proof.core.run 5 State.reset = .next t ∧ t.reg 1 = 0x0100 ∧ t.pc = 0x0005) ∧
  (∃ t, Sys2Proof.core.run 6 State.reset = .next t ∧ readWord t.mem 0x00000 = some 0x0100 ∧ t.pc = 0x0006) ∧
  (∃ t, Sys2Proof.core.run 7 State.reset = .next t ∧ readWord t.mem 0x00001 = some 0x0100 ∧ t.pc = 0x0007) ∧
  (∃ t, Sys2Proof.core.run 8 State.reset = .next t ∧ readWord t.mem 0x00001 = some 0x0100 ∧ t.pc = 0x0008) ∧
  (∃ t, Sys2Proof.core.run 9 State.reset = .next t ∧ t.dly = some ⟨some 0x0000, 0x0100⟩ ∧ t.pc = 0x0009) ∧
  (∃ t, Sys2Proof.core.run 10 State.reset = .next t ∧ t.cs = 0x0000 ∧ t.pc = 0x0100 ∧ t.ds = 0x0000 ∧
    t.ss = 0x0000 ∧ t.es = 0x2000 ∧ t.reg 0 = 0x0000 ∧ t.reg 1 = 0x0100 ∧ t.reg 13 = 0x7FFF ∧ t.psw = 0x0000 ∧
    readWord t.mem 0x00000 = some 0x0100 ∧ readWord t.mem 0x00001 = some 0x0100 ∧
    (∀ r, 1 < r.toNat → r.toNat < 15 → t.reg r = State.reset.reg r) ∧
    t.mem = [(0, 0x00), (1, 0x01), (2, 0x00), (3, 0x01)] ∧
    t.dly = none ∧ t.view = .normal ∧ t.shadow = State.reset.shadow ∧ t.halted = false)

/-! ## What no instruction does -/

/-- No instruction but SWI and RETI moves the PC it finds, changes CS or switches the view at once; a pending
transfer is set only by a taken jump, JML or a write of R15 (45_control_flow.md R230, 10_state.md R25). -/
def Obligations.OnlyTransfersMoveThePc : Prop :=
  ∀ (i : Instr) (s t : State), exec i s = .next t → i ≠ .swi → i ≠ .reti →
    t.pc = s.pc ∧ t.cs = s.cs ∧ t.view = s.view ∧ (t.dly = s.dly ∨ Transfers i s.psw)

/-- In the delay slot of a taken transfer every control transfer is refused, a conditional jump whose condition does
not hold does nothing, HLT halts, and no hardware interrupt is taken (45_control_flow.md R243). -/
def Obligations.TransferInSlotRefused : Prop :=
  ∀ s : State, s.dly ≠ none →
    (∀ i : Instr, Transfers i s.psw → ∃ r, exec i s = .refused r) ∧
    (∀ i : Instr, condition s.psw i = some false → exec i s = .next s) ∧
    exec .hlt s = .next { s with halted := true } ∧
    (NoReset s → s.halted = false → step s = runInstruction s.nextBoundary)

/-- In the delay slot of a taken transfer every ordinary read of R15 is refused, MOV Rd, PC, 3 gives X + 1, and CS
reads as the old value (45_control_flow.md R242). -/
def Obligations.PcReadInSlot : Prop :=
  ∀ s : State, s.dly ≠ none →
    (∀ i : Instr, (15 : RegNum) ∈ sources i → ∃ r, exec i s = .refused r) ∧
    (∀ rd : RegNum, rd ≠ 15 → Gives (exec (.amv rd 15) s) s rd s.pc ∧ Gives (exec (.mvsFrom rd .cs) s) s rd s.cs)

/-- Every instruction completes in every state except where the spec refuses it, and none faults
(93_implementation_defined.md sections 1, 2, 4; 60_exceptions.md R321). -/
def Obligations.ExecStopsExactlyWhereSpecRefuses : Prop :=
  ∀ (i : Instr) (s : State), i.wellFormed = true →
    ((∃ t, exec i s = .next t) ↔ ¬Refuses i s) ∧ (∀ f, exec i s ≠ .fault f)

/-- Each instruction writes only the PSW bits the spec names for it, and none writes S; ROR and ROC write C only where
ShiftNumerics says so, by default they do not (10_state.md R30, R32, 42_shift.md R182, log 11). -/
def Obligations.PswWrittenOnlyAsNamed : Prop :=
  ∀ (i : Instr) (s t : State), exec i s = .next t → i ≠ .swi → i ≠ .reti →
    (∀ j, j ∉ pswWrites s.cfg i → t.psw.getLsbD j = s.psw.getLsbD j) ∧ pswS t.psw = pswS s.psw

/-- Only ST and STS change memory or hand the platform a write, and only LD, LDS and SWI take an answer of the
platform (20_memory.md R65). -/
def Obligations.MemoryTouchedOnlyAsNamed : Prop :=
  ∀ (i : Instr) (s t : State), exec i s = .next t →
    (isStore i = false → MemKept s t ∧ t.platformOut = s.platformOut) ∧
    (isLoad i = false → t.platformIn = s.platformIn)

/-- Each instruction changes only its destination registers among R0 to R14, and only MVS Sx, Rd changes DS, SS or ES
(10_state.md R20, R23, R27). -/
def Obligations.OnlyDestinationsChange : Prop :=
  ∀ (i : Instr) (s t : State), exec i s = .next t →
    (∀ r, r ≠ 15 → r ∉ dests i → t.reg r = s.reg r) ∧
    ((∀ g rd, i ≠ .mvsTo g rd) → t.ds = s.ds ∧ t.ss = s.ss ∧ t.es = s.es)

/-! ## Memory -/

/-- The physical address, and when two names are one location (20_memory.md R62, R63). -/
def Obligations.PhysicalAddress : Prop :=
  (∀ seg off : Word, (phys seg off).toNat = (seg.toNat * 2 ^ 4 + off.toNat) % 2 ^ 20) ∧
  (∀ seg off seg' off' : Word, phys seg off = phys seg' off' ↔
    (seg.toNat * 16 + off.toNat) % 2 ^ 20 = (seg'.toNat * 16 + off'.toNat) % 2 ^ 20)

/-- The implicit segment of LD and ST, for every PSW and every value of DualPairOdd: R0 always DS; then SS for a member
of the stack set, then ES for a member of the extra set, then DS. A dual pair of an even number n is n and n + 1; of an
odd n, n and n - 1 under xorOne, n and n + 1 under plusOne; by default the test on n - 1 and n + 1 is refused where it
is asked, the stack set's first (44_memory_access.md R212, R213, log 12). -/
def Obligations.ImplicitSegment : Prop :=
  (∀ s : State, implicitSeg s 0 = some .ds) ∧
  (∀ (s : State) (rb : RegNum) (odd : DualPairOdd) (p : Word), rb ≠ 0 → odd = s.cfg.dualPairOdd → p = s.psw →
    (InSet odd (pswSR p) (pswDS p) rb → implicitSeg s rb = some .ss) ∧
    (SetRefused odd (pswSR p) (pswDS p) rb → implicitSeg s rb = none) ∧
    (¬InSet odd (pswSR p) (pswDS p) rb → ¬SetRefused odd (pswSR p) (pswDS p) rb →
      (InSet odd (pswER p) (pswDE p) rb → implicitSeg s rb = some .es) ∧
      (SetRefused odd (pswER p) (pswDE p) rb → implicitSeg s rb = none) ∧
      (¬InSet odd (pswER p) (pswDE p) rb → ¬SetRefused odd (pswER p) (pswDE p) rb →
        implicitSeg s rb = some .ds)))

/-- The worked segment selections of 44_memory_access.md R218, with SP = R13 and FP = R12. -/
def Obligations.SegmentSelectionExamples : Prop :=
  ∀ s : State,
    (pswSR s.psw = 13 → pswER s.psw = 0 → pswDS s.psw = false →
      implicitSeg s 13 = some .ss ∧ implicitSeg s 12 = some .ds ∧ implicitSeg s 0 = some .ds ∧
      implicitSeg s 7 = some .ds) ∧
    (pswSR s.psw = 0 → pswER s.psw = 11 → pswDE s.psw = false →
      implicitSeg s 11 = some .es ∧ implicitSeg s 10 = some .ds) ∧
    (pswSR s.psw = 13 → pswDS s.psw = true →
      implicitSeg s 13 = some .ss ∧ (s.cfg.dualPairOdd = .refuse → implicitSeg s 12 = none) ∧
      (s.cfg.dualPairOdd = .xorOne → implicitSeg s 12 = some .ss) ∧
      (s.cfg.dualPairOdd = .plusOne → pswER s.psw = 0 → implicitSeg s 12 = some .ds)) ∧
    (pswSR s.psw = 0 → pswER s.psw = 10 → pswDE s.psw = true →
      implicitSeg s 10 = some .es ∧ implicitSeg s 11 = some .es)

/-- LD loads the word at the implicit segment and base plus offset, LDS the word at the named segment and address
register; the address is computed before the destination is written; no flag changes (44_memory_access.md R211, R214,
R216). The undecidable dual pair refuses (R213). -/
def Obligations.LoadResult : Prop :=
  (∀ (s : State) (rd rb : RegNum) (off : BitVec 5) (g : Seg), Usable s rd → Usable s rb →
    implicitSeg s rb = some g →
    Loads (exec (.ld rd rb off) s) s rd (phys (s.seg g) (s.reg rb + off.setWidth 16))) ∧
  (∀ (s : State) (rd rb : RegNum) (off : BitVec 5), Usable s rb → implicitSeg s rb = none →
    exec (.ld rd rb off) s = .refused .oddDualPair) ∧
  (∀ (s : State) (rd rs : RegNum) (g : Seg), Usable s rd → Usable s rs →
    Loads (exec (.lds rd g rs) s) s rd (phys (s.seg g) (s.reg rs)))

/-- ST stores a register at the implicit segment and base plus offset, STS at the named segment and address register:
one word, every other byte of memory unchanged, no register and no flag changed (44_memory_access.md R211, R215, R217,
20_memory.md R70). -/
def Obligations.StoreResult : Prop :=
  (∀ (s : State) (rd rb : RegNum) (off : BitVec 5) (g : Seg), MemoryCanonical s → Usable s rd → Usable s rb →
    implicitSeg s rb = some g →
    Stores (exec (.st rd rb off) s) s (s.reg rd) (phys (s.seg g) (s.reg rb + off.setWidth 16))) ∧
  (∀ (s : State) (rd rb : RegNum) (off : BitVec 5), Usable s rb → implicitSeg s rb = none →
    exec (.st rd rb off) s = .refused .oddDualPair) ∧
  (∀ (s : State) (rd rs : RegNum) (g : Seg), MemoryCanonical s → Usable s rd → Usable s rs →
    Stores (exec (.sts rd g rs) s) s (s.reg rd) (phys (s.seg g) (s.reg rs)))

/-- An LD or LDS from an ordinary address returns the value the ST or STS just before it wrote to the same physical
address, whatever segment, base and offset name it (20_memory.md R75, R63). -/
def Obligations.LoadSeesLatestStore : Prop :=
  ∀ (s t : State) (i : Instr) (rd rb : RegNum) (a : PhysAddr), MemoryCanonical s → IsHome a →
    StoresTo i s rd rb a → exec i s = .next t →
    ∀ (j : Instr) (rd' rb' : RegNum), LoadsFrom j t rd' rb' a → Usable t rd' → Usable t rb' →
      Gives (exec j t) t rd' (s.reg rd)

/-- A fetch of an ordinary or boot ROM word gives the word in memory or one that a store still in the fetch window
replaced; with no such store, and after any flush, it gives the word in memory and draws nothing (20_memory.md
R78). -/
def Obligations.FetchAfterStore : Prop :=
  ∀ (a : PhysAddr) (s : State), ¬IsPlatform a →
    ((fetchWord a s).1 = readWord s.mem a ∨ ∃ e ∈ s.stored, e.addr = a ∧ (fetchWord a s).1 = e.old) ∧
    ((∀ e ∈ s.stored, e.addr ≠ a) → fetchWord a s = (readWord s.mem a, s)) ∧
    (∀ t, exec .fsh s = .next t → fetchWord a t = (readWord s.mem a, t)) ∧
    (∀ t, exec .reti s = .next t → fetchWord a t = (readWord s.mem a, t)) ∧
    (∀ v, (fetchWord a (interruptEntry v s)).1 = readWord s.mem a)

/-- An ST or STS to a screen cell is what that cell shows, and no other cell changes (20_memory.md R67, R71; which cell
is which row and column is not modelled, log 7). -/
def Obligations.ScreenShowsLastStore : Prop :=
  ∀ (s t : State) (i : Instr) (rd rb : RegNum) (a : PhysAddr), StoresTo i s rd rb a → exec i s = .next t →
    0xF1000 ≤ a.toNat → a.toNat ≤ 0xF17CF →
    screenCell t a = some (s.reg rd) ∧ ∀ a', a' ≠ a → screenCell t a' = screenCell s a'

/-! ## Data movement -/

/-- LDI loads its zero-extended immediate into R0 (40_data_movement.md R130). -/
def Obligations.LdiResult : Prop :=
  ∀ (s : State) (imm : BitVec 15), encode (.ldi imm) = 0b0#1 ++ imm ∧
    ∃ v : Word, v.toNat = imm.toNat ∧ Gives (exec (.ldi imm) s) s 0 v

/-- LSI loads its sign-extended immediate into any register, into R15 as a delayed jump (40_data_movement.md R131). -/
def Obligations.LsiResult : Prop :=
  ∀ (s : State) (rd : RegNum) (imm : BitVec 5), Usable s rd →
    encode (.lsi rd imm) = 0b1111110#7 ++ rd ++ imm ∧
    ∃ v : Word, v.toInt = imm.toInt ∧ Gives (exec (.lsi rd imm) s) s rd v

/-- MOV with imm2 in 0..2 gives the source plus the immediate modulo 2^16; from R15 it is the link, X + 1 + imm2;
into R15 it is the register jump (40_data_movement.md R132, R133, R134). -/
def Obligations.MovResult : Prop :=
  ∀ (s : State) (rd rs : RegNum) (imm : BitVec 2), imm ≠ 3 → Usable s rd → Usable s rs →
    encode (.mov rd rs imm) = 0b111110#6 ++ rd ++ rs ++ imm ∧
    ∃ v : Word, v.toNat = ((s.reg rs).toNat + imm.toNat) % 2 ^ 16 ∧ Gives (exec (.mov rd rs imm) s) s rd v

/-- MOV Rd, Rs, 3 gives X + 1 for R15, in a delay slot too; for another register its value, plus 3 under AmvAddsThree,
when no noted instruction wrote it; else that of one of the values it held, by a free choice
(40_data_movement.md R135). -/
def Obligations.ArchitecturalRead : Prop :=
  ∀ (s : State) (rd rs : RegNum), Usable s rd →
    Gives (exec (.amv rd 15) s) s rd s.pc ∧
    (rs ≠ 15 → (∀ e ∈ s.recent, e.reg ≠ rs) →
      Gives (exec (.amv rd rs) s) s rd (if s.cfg.amvAddsThree then s.reg rs + 3 else s.reg rs)) ∧
    (rs ≠ 15 → (∃ e ∈ s.recent, e.reg = rs) →
      ∃ v t, (v = s.reg rs ∨ ∃ e ∈ s.recent, e.reg = rs ∧ v = e.old) ∧ exec (.amv rd rs) s = .next t ∧
        Dest rd (if s.cfg.amvAddsThree then v + 3 else v) s t ∧ t.psw = s.psw ∧ CoreKept s t ∧ NoStore s t ∧
        t.platformIn = s.platformIn ∧ t.draws = s.draws + 1)

/-- MVS Rd, Sx gives the segment register, for CS the active view's; MVS Sx, Rd writes DS, SS or ES and nothing else,
and is refused for CS (40_data_movement.md R136, R137). -/
def Obligations.MvsResult : Prop :=
  (∀ (s : State) (rd : RegNum) (g : Seg), Usable s rd →
    Gives (exec (.mvsFrom rd g) s) s rd
      (match g with | .cs => s.cs | .ds => s.ds | .ss => s.ss | .es => s.es)) ∧
  (∀ (s : State) (rd : RegNum), Usable s rd →
    exec (.mvsTo .ds rd) s = .next { s with ds := s.reg rd } ∧
    exec (.mvsTo .ss rd) s = .next { s with ss := s.reg rd } ∧
    exec (.mvsTo .es rd) s = .next { s with es := s.reg rd }) ∧
  (∀ (s : State) (rd : RegNum), exec (.mvsTo .cs rd) s = .refused .mvsToCs)

/-- SMV reads PC, PSW and CS of the view that is not active, or the active PSW (40_data_movement.md R138 to R141). -/
def Obligations.SmvResult : Prop :=
  ∀ (s : State) (rd : RegNum), Usable s rd →
    (s.view = .normal → Gives (exec (.smvApc rd) s) s rd s.shadow.pc ∧
      Gives (exec (.smvApsw rd) s) s rd s.shadow.psw ∧ Gives (exec (.smvAcs rd) s) s rd s.shadow.cs ∧
      Gives (exec (.smvPsw rd) s) s rd s.normal.psw) ∧
    (s.view = .shadow → Gives (exec (.smvApc rd) s) s rd s.normal.pc ∧
      Gives (exec (.smvApsw rd) s) s rd s.normal.psw ∧ Gives (exec (.smvAcs rd) s) s rd s.normal.cs ∧
      Gives (exec (.smvPsw rd) s) s rd s.shadow.psw)

/-! ## Arithmetic and logic -/

/-- ADD and ANW, both forms: the sum modulo 2^16, N and Z from it, C the carry out of bit 15, V signed overflow by
the general-knowledge formula of 41_alu.md R153 (log 26); ANW writes no register (41_alu.md R150 to R155, R164). -/
def Obligations.AddResult : Prop :=
  ∀ (s : State) (rd rs : RegNum) (imm : BitVec 4) (a b c : Word), Usable s rd →
    a = s.reg rd → b = s.reg rs → c = imm.setWidth 16 →
    (Usable s rs → GivesFlags (exec (.addR rd rs) s) s rd (a + b) (a + b).msb (a + b == 0)
      (a.msb == b.msb && (a + b).msb != a.msb) (decide (65535 < a.toNat + b.toNat))) ∧
    GivesFlags (exec (.addI rd imm) s) s rd (a + c) (a + c).msb (a + c == 0)
      (a.msb == c.msb && (a + c).msb != a.msb) (decide (65535 < a.toNat + c.toNat)) ∧
    (Usable s rs → FlagsOnly (exec (.anwR rd rs) s) s (a + b).msb (a + b == 0)
      (a.msb == b.msb && (a + b).msb != a.msb) (decide (65535 < a.toNat + b.toNat))) ∧
    FlagsOnly (exec (.anwI rd imm) s) s (a + c).msb (a + c == 0)
      (a.msb == c.msb && (a + c).msb != a.msb) (decide (65535 < a.toNat + c.toNat))

/-- SUB and CMP, both forms: the difference modulo 2^16, N and Z from it, C by SubCarry (log 10), V signed overflow by the
general-knowledge formula of 41_alu.md R153 (log 26); CMP writes no register (41_alu.md R150 to R153, R156, R157,
R164). -/
def Obligations.SubResult : Prop :=
  ∀ (s : State) (rd rs : RegNum) (imm : BitVec 4) (a b c : Word) (carry : Word → Bool), Usable s rd →
    a = s.reg rd → b = s.reg rs → c = imm.setWidth 16 →
    (∀ x, carry x = match s.cfg.subCarry with
      | .borrow => decide (a.toNat < x.toNat)
      | .notBorrow => decide (x.toNat ≤ a.toNat)) →
    (Usable s rs → GivesFlags (exec (.subR rd rs) s) s rd (a - b) (a - b).msb (a - b == 0)
      (a.msb != b.msb && (a - b).msb != a.msb) (carry b)) ∧
    GivesFlags (exec (.subI rd imm) s) s rd (a - c) (a - c).msb (a - c == 0)
      (a.msb != c.msb && (a - c).msb != a.msb) (carry c) ∧
    (Usable s rs → FlagsOnly (exec (.cmpR rd rs) s) s (a - b).msb (a - b == 0)
      (a.msb != b.msb && (a - b).msb != a.msb) (carry b)) ∧
    FlagsOnly (exec (.cmpI rd imm) s) s (a - c).msb (a - c == 0)
      (a.msb != c.msb && (a - c).msb != a.msb) (carry c)

/-- After CMP, either form, Z says equal, C (with the default SubCarry, log 10) says unsigned less, and N differs from V
exactly when the first operand is less as a signed number; V and the signed reading are the general-knowledge formulas
of 41_alu.md R153 and 00_scope.md R10 (log 26) (41_alu.md R157). -/
def Obligations.CompareOrders : Prop :=
  ∀ (s t : State) (rd rs : RegNum) (imm : BitVec 4) (i : Instr) (b : Word),
    (i, b) ∈ [(Instr.cmpR rd rs, s.reg rs), (.cmpI rd imm, imm.setWidth 16)] →
    s.cfg.subCarry = .borrow → exec i s = .next t →
    (pswZ t.psw = true ↔ s.reg rd = b) ∧
    (pswC t.psw = true ↔ (s.reg rd).toNat < b.toNat) ∧
    (pswN t.psw ≠ pswV t.psw ↔ (s.reg rd).toInt < b.toInt)

/-- AND, TST, OR, ONW, XOR and TBC, both forms: the bitwise result, N and Z from it, C and V unchanged; TST, ONW and
TBC write no register (41_alu.md R150 to R152, R158 to R164). -/
def Obligations.LogicResult : Prop :=
  ∀ (s : State) (rd rs : RegNum) (imm : BitVec 4) (a b c : Word), Usable s rd →
    a = s.reg rd → b = s.reg rs → c = imm.setWidth 16 →
    (Usable s rs →
      GivesFlags (exec (.andR rd rs) s) s rd (a &&& b) (a &&& b).msb (a &&& b == 0) (pswV s.psw) (pswC s.psw) ∧
      FlagsOnly (exec (.tstR rd rs) s) s (a &&& b).msb (a &&& b == 0) (pswV s.psw) (pswC s.psw) ∧
      GivesFlags (exec (.orR rd rs) s) s rd (a ||| b) (a ||| b).msb (a ||| b == 0) (pswV s.psw) (pswC s.psw) ∧
      FlagsOnly (exec (.onwR rd rs) s) s (a ||| b).msb (a ||| b == 0) (pswV s.psw) (pswC s.psw) ∧
      GivesFlags (exec (.xorR rd rs) s) s rd (a ^^^ b) (a ^^^ b).msb (a ^^^ b == 0) (pswV s.psw) (pswC s.psw) ∧
      FlagsOnly (exec (.tbcR rd rs) s) s (a ^^^ b).msb (a ^^^ b == 0) (pswV s.psw) (pswC s.psw)) ∧
    GivesFlags (exec (.andI rd imm) s) s rd (a &&& c) (a &&& c).msb (a &&& c == 0) (pswV s.psw) (pswC s.psw) ∧
    FlagsOnly (exec (.tstI rd imm) s) s (a &&& c).msb (a &&& c == 0) (pswV s.psw) (pswC s.psw) ∧
    GivesFlags (exec (.orI rd imm) s) s rd (a ||| c) (a ||| c).msb (a ||| c == 0) (pswV s.psw) (pswC s.psw) ∧
    FlagsOnly (exec (.onwI rd imm) s) s (a ||| c).msb (a ||| c == 0) (pswV s.psw) (pswC s.psw) ∧
    GivesFlags (exec (.xorI rd imm) s) s rd (a ^^^ c) (a ^^^ c).msb (a ^^^ c == 0) (pswV s.psw) (pswC s.psw) ∧
    FlagsOnly (exec (.tbcI rd imm) s) s (a ^^^ c).msb (a ^^^ c == 0) (pswV s.psw) (pswC s.psw)

/-- MUL and MNW: the low 16 bits of the product, the same for both signednesses (two's complement, log 26), N and Z
from them, C and V unchanged; MNW writes no register (41_alu.md R166, R168, R169). -/
def Obligations.MulResult : Prop :=
  ∀ (s : State) (rd rs : RegNum), Usable s rd → Usable s rs → ∃ r : Word,
    r.toNat = (s.reg rd).toNat * (s.reg rs).toNat % 2 ^ 16 ∧
    r = BitVec.ofInt 16 ((s.reg rd).toInt * (s.reg rs).toInt) ∧
    GivesFlags (exec (.mul rd rs) s) s rd r r.msb (r == 0) (pswV s.psw) (pswC s.psw) ∧
    FlagsOnly (exec (.mnw rd rs) s) s r.msb (r == 0) (pswV s.psw) (pswC s.psw)

/-- MUL32 and MNW32 for an even Rd: the 32-bit product in the reading MulDivSigned names (log 9; signed is two's
complement, log 26; that MNW32 follows the parameter is log 25), low half to Rd and high half to Rd + 1, N and Z from
the 32 bits, C and V unchanged; MNW32 writes no register; an odd Rd is refused (41_alu.md R165, R166, R170, R171). -/
def Obligations.WideMultiplyResult : Prop :=
  (∀ (s : State) (rd rs : RegNum), rd.getLsbD 0 = false → Usable s rs → ∃ p : BitVec 32,
    (s.cfg.mulDivSigned = false → p.toNat = (s.reg rd).toNat * (s.reg rs).toNat) ∧
    (s.cfg.mulDivSigned = true → p.toInt = (s.reg rd).toInt * (s.reg rs).toInt) ∧
    (Usable s (rd + 1) → ∃ t, exec (.mul32 rd rs) s = .next t ∧
      DestPair rd (p.extractLsb' 0 16) (p.extractLsb' 16 16) s t ∧
      Flags s t p.msb (p == 0) (pswV s.psw) (pswC s.psw) ∧ Frame s t) ∧
    FlagsOnly (exec (.mnw32 rd rs) s) s p.msb (p == 0) (pswV s.psw) (pswC s.psw)) ∧
  (∀ (s : State) (rd rs : RegNum), rd.getLsbD 0 = true →
    exec (.mul32 rd rs) s = .refused .oddPair ∧ exec (.mnw32 rd rs) s = .refused .oddPair)

/-- DIV, DNW, DIV32 and DNW32 for a divisor other than 0, but for the signed 0x8000 / 0xFFFF: quotient and remainder in
the reading MulDivSigned names (log 9; that a signed division truncates toward zero with a remainder of the dividend's
sign is general knowledge, log 26; that DNW and DNW32 follow the parameter is log 25), N and Z from the quotient, C and V unchanged; DIV writes the quotient, DIV32 the pair,
DNW and DNW32 no register; an odd Rd of the wide forms is refused (41_alu.md R165, R166, R172 to R175). -/
def Obligations.DivideResult : Prop :=
  (∀ (s : State) (rd rs : RegNum) (a b : Word), Usable s rd → Usable s rs → a = s.reg rd → b = s.reg rs → b ≠ 0 →
    ¬(s.cfg.mulDivSigned = true ∧ a = 0x8000 ∧ b = 0xFFFF) → ∃ q m : Word,
      (s.cfg.mulDivSigned = false → q.toNat = a.toNat / b.toNat ∧ m.toNat = a.toNat - q.toNat * b.toNat) ∧
      (s.cfg.mulDivSigned = true → q.toInt = a.toInt.tdiv b.toInt ∧ m.toInt = a.toInt - q.toInt * b.toInt) ∧
      GivesFlags (exec (.div rd rs) s) s rd q q.msb (q == 0) (pswV s.psw) (pswC s.psw) ∧
      FlagsOnly (exec (.dnw rd rs) s) s q.msb (q == 0) (pswV s.psw) (pswC s.psw) ∧
      (rd.getLsbD 0 = false → Usable s (rd + 1) → ∃ t, exec (.div32 rd rs) s = .next t ∧ DestPair rd q m s t ∧
        Flags s t q.msb (q == 0) (pswV s.psw) (pswC s.psw) ∧ Frame s t) ∧
      (rd.getLsbD 0 = false →
        FlagsOnly (exec (.dnw32 rd rs) s) s q.msb (q == 0) (pswV s.psw) (pswC s.psw))) ∧
  (∀ (s : State) (rd rs : RegNum), rd.getLsbD 0 = true →
    exec (.div32 rd rs) s = .refused .oddPair ∧ exec (.dnw32 rd rs) s = .refused .oddPair)

/-- Division by zero completes with free values for quotient, remainder, N and Z; the signed 0x8000 / 0xFFFF completes
with a free quotient, N and Z taken from it and remainder 0; C, V and everything else stay (41_alu.md R166, R167,
logs 15 and 16; that DNW and DNW32 follow MulDivSigned is log 25). -/
def Obligations.DivideOpenValues : Prop :=
  ∀ (s : State) (rd rs : RegNum) (a b : Word), Usable s rd → Usable s rs → a = s.reg rd → b = s.reg rs →
    b = 0 ∨ (s.cfg.mulDivSigned = true ∧ a = 0x8000 ∧ b = 0xFFFF) →
    ∃ (q m : Word) (n z : Bool) (k : Nat), (b = 0xFFFF → m = 0 ∧ n = q.msb ∧ z = (q == 0)) ∧
      (∃ t, exec (.div rd rs) s = .next t ∧ Dest rd q s t ∧ Flags s t n z (pswV s.psw) (pswC s.psw) ∧
        CoreKept s t ∧ NoStore s t ∧ t.platformIn = s.platformIn ∧ t.draws = s.draws + k) ∧
      (∃ t, exec (.dnw rd rs) s = .next t ∧ NoDest s t ∧ Flags s t n z (pswV s.psw) (pswC s.psw) ∧
        CoreKept s t ∧ NoStore s t ∧ t.platformIn = s.platformIn ∧ t.draws = s.draws + k) ∧
      (rd.getLsbD 0 = false → Usable s (rd + 1) →
        ∃ t, exec (.div32 rd rs) s = .next t ∧ DestPair rd q m s t ∧
          Flags s t n z (pswV s.psw) (pswC s.psw) ∧ CoreKept s t ∧ NoStore s t ∧ t.platformIn = s.platformIn ∧
          t.draws = s.draws + k) ∧
      (rd.getLsbD 0 = false →
        ∃ t, exec (.dnw32 rd rs) s = .next t ∧ NoDest s t ∧ Flags s t n z (pswV s.psw) (pswC s.psw) ∧
          CoreKept s t ∧ NoStore s t ∧ t.platformIn = s.platformIn ∧ t.draws = s.draws + k)

/-! ## Shifts -/

/-- SL, SLC and SR: the shifted value, N and Z from it, V unchanged, C as ShiftNumerics names it: by default the last bit
shifted out for a count of at least 1 and unchanged for 0; the other values of the parameter are the model's (log 11)
(42_shift.md R180 to R185). -/
def Obligations.ShiftResult : Prop :=
  ∀ (s : State) (rd : RegNum) (count : BitVec 3) (n : Nat) (a cin : Word) (nm : ShiftNumerics), Usable s rd →
    a = s.reg rd → n = count.toNat → cin = (if pswC s.psw then 1 else 0) → nm = s.cfg.shiftNumerics →
    (∃ r : Word, r.toNat = a.toNat * 2 ^ n % 2 ^ 16 ∧
      GivesShift (exec (.sl rd count) s) s rd n r (shiftC nm n (a.getLsbD (16 - n)) a.msb (pswC s.psw))) ∧
    (∃ r : Word, r = (if n = 0 then a else a <<< n ||| cin <<< (n - 1)) ∧
      GivesShift (exec (.slc rd count) s) s rd n r (shiftC nm n (a.getLsbD (16 - n)) a.msb (pswC s.psw))) ∧
    (∃ r : Word, r.toNat = a.toNat / 2 ^ n ∧
      GivesShift (exec (.sr rd count) s) s rd n r (shiftC nm n (a.getLsbD (n - 1)) (a.getLsbD 0) (pswC s.psw)))

/-- SRC, SRA and SAC: the logical or arithmetic shift right (s(r) = floor(s(a) / 2^n), two's complement, log 26), with
the old carry ORed in for SRC and SAC as ShiftNumerics names it; N and Z from it, V unchanged, C as ShiftNumerics names
it, by default the last bit shifted out; the other values of the parameter are the model's (log 11) (42_shift.md R181,
R182, R186 to R188). -/
def Obligations.CarryAndArithmeticShiftResult : Prop :=
  ∀ (s : State) (rd : RegNum) (count : BitVec 3) (n : Nat) (a cin x : Word) (nm : ShiftNumerics) (c : Bool),
    Usable s rd → a = s.reg rd → n = count.toNat → cin = (if pswC s.psw then 1 else 0) →
    nm = s.cfg.shiftNumerics → x.toInt = a.toInt / 2 ^ n →
    c = shiftC nm n (a.getLsbD (n - 1)) (a.getLsbD 0) (pswC s.psw) →
    GivesShift (exec (.src rd count) s) s rd n (a >>> n ||| shiftCin nm n cin) c ∧
    GivesShift (exec (.sra rd count) s) s rd n x c ∧
    GivesShift (exec (.sac rd count) s) s rd n (x ||| shiftCin nm n cin) c

/-- ROR rotates right by the count; ROC gives the same ORed with the old carry as ShiftNumerics names it; both write N and
Z and leave V, and leave C by default; that a value of ShiftNumerics lets them write C as a right shift does is the
model's (log 11) (42_shift.md R181, R182, R189, R190, 93_implementation_defined.md section 3). -/
def Obligations.RotateResult : Prop :=
  ∀ (s : State) (rd : RegNum) (count : BitVec 3) (n : Nat) (a cin : Word) (nm : ShiftNumerics) (c : Bool),
    Usable s rd → a = s.reg rd → n = count.toNat → cin = (if pswC s.psw then 1 else 0) →
    nm = s.cfg.shiftNumerics →
    c = (if nm.rotateCarry then shiftC nm n (a.getLsbD (n - 1)) (a.getLsbD 0) (pswC s.psw) else pswC s.psw) →
    GivesShift (exec (.ror rd count) s) s rd n (a.rotateRight n) c ∧
    GivesShift (exec (.roc rd count) s) s rd n (a.rotateRight n ||| shiftCin nm n cin) c

/-! ## Single operand -/

/-- SWB exchanges the two bytes, INV inverts every bit, NEG gives 0 minus the value modulo 2^16; none writes a flag
(43_single_operand.md R200 to R204). -/
def Obligations.SingleOperandResult : Prop :=
  ∀ (s : State) (rx : RegNum) (a : Word), Usable s rx → a = s.reg rx →
    (∃ r : Word, r = a.extractLsb' 0 8 ++ a.extractLsb' 8 8 ∧ Gives (exec (.swb rx) s) s rx r) ∧
    (∃ r : Word, (∀ j < 16, r.getLsbD j = !a.getLsbD j) ∧ Gives (exec (.inv rx) s) s rx r) ∧
    (∃ r : Word, r.toNat = (2 ^ 16 - a.toNat) % 2 ^ 16 ∧ Gives (exec (.neg rx) s) s rx r)

/-! ## Control flow -/

/-- The eight conditional jumps: when the condition on the active PSW holds, a pending transfer to
X + JumpBase + sext(target9) in the current CS, X the jump's own offset; when it does not, nothing; nothing else
changes; taken in a delay slot, a refusal (45_control_flow.md R231 to R239, R241, R243). -/
def Obligations.ConditionalJumpResult : Prop :=
  ∀ (s : State) (target : BitVec 9) (x : Word) (i : Instr) (c : Bool), s.pc = x + 1 →
    (i, c) ∈ [(Instr.jz target, s.psw.getLsbD 1), (.jnz target, !s.psw.getLsbD 1),
      (.jc target, s.psw.getLsbD 3), (.jnc target, !s.psw.getLsbD 3),
      (.jn target, s.psw.getLsbD 0), (.jnn target, !s.psw.getLsbD 0),
      (.jo target, s.psw.getLsbD 2), (.jno target, !s.psw.getLsbD 2)] →
    (c = true → s.dly = none →
      exec i s = .next { s with dly := some ⟨none, x + s.cfg.jumpBase + target.signExtend 16⟩ }) ∧
    (c = true → s.dly ≠ none → exec i s = .refused .transferInSlot) ∧
    (c = false → exec i s = .next s)

/-- JML with an even Rx: a pending transfer to CS = Rx, offset = Rx + 1, as they read when it executes; with Rx = 14
the offset is X + 1; nothing else changes; an odd Rx is refused (45_control_flow.md R240, R241, R243). -/
def Obligations.FarJumpResult : Prop :=
  (∀ (s : State) (rx : RegNum), rx.getLsbD 0 = false → s.dly = none →
    exec (.jml rx) s = .next { s with dly := some ⟨some (s.reg rx), s.reg (rx + 1)⟩ }) ∧
  (∀ (s : State) (rx : RegNum), rx.getLsbD 0 = true → exec (.jml rx) s = .refused .oddJml) ∧
  (∀ (s : State) (rx : RegNum), rx.getLsbD 0 = false → s.dly ≠ none → ∃ r, exec (.jml rx) s = .refused r)

/-! ## PSW operations -/

/-- SRS, SRD, ERS and ERD copy the register number into PSW.SR or PSW.ER, write the dual bit and change nothing else;
they complete in every state (46_psw_ops.md R250 to R255). -/
def Obligations.SelectorResult : Prop :=
  ∀ (s : State) (rx : RegNum) (dual : Bool),
    (∃ t, exec (if dual then .srd rx else .srs rx) s = .next t ∧ pswSR t.psw = rx ∧ pswDS t.psw = dual ∧
      (∀ j, j < 6 ∨ 10 < j → t.psw.getLsbD j = s.psw.getLsbD j) ∧ NoDest s t ∧ Frame s t) ∧
    (∃ t, exec (if dual then .erd rx else .ers rx) s = .next t ∧ pswER t.psw = rx ∧ pswDE t.psw = dual ∧
      (∀ j, j < 11 ∨ 15 < j → t.psw.getLsbD j = s.psw.getLsbD j) ∧ NoDest s t ∧ Frame s t)

/-- SET, CLR, SET2 and CLR2 write the one PSW bit their index names and change nothing else; a bit above 15 is refused,
and so is a write that would change S (46_psw_ops.md R256 to R262). -/
def Obligations.PswBitResult : Prop :=
  ∀ (s : State) (imm : BitVec 4) (i : Instr) (k : Nat) (b : Bool),
    (i, k, b) ∈ [(Instr.set imm, imm.toNat, true), (.clr imm, imm.toNat, false),
      (.set2 imm, imm.toNat + 4, true), (.clr2 imm, imm.toNat + 4, false)] →
    (k < 16 → (k = 5 → s.psw.getLsbD 5 = b) → ∃ t, exec i s = .next t ∧ t.psw.getLsbD k = b ∧
      (∀ j, j ≠ k → t.psw.getLsbD j = s.psw.getLsbD j) ∧ NoDest s t ∧ Frame s t) ∧
    (k = 5 → s.psw.getLsbD 5 ≠ b → exec i s = .refused .viewChange) ∧
    (16 ≤ k → exec i s = .refused .pswBitAbove15)

/-! ## System -/

/-- NOP changes nothing; FSH empties the recent-write window and the fetch window and changes nothing else; both
complete in every state, in a delay slot too (47_system.md R271, R272). -/
def Obligations.NopAndFlush : Prop :=
  encode .nop = 0xFFF0 ∧ encode .fsh = 0xFFF1 ∧
  (∀ s : State, exec .nop s = .next s) ∧
  (∀ s : State, exec .fsh s = .next { s with recent := [], stored := [] })

end Statements
end

