-- ==== Sys2Proof/Laws/Flags.lean ====
section
/-! SUPPORT. What every PSW update leaves in every bit, and the flags read back after it. -/

namespace Sys2Proof.Machine

/-- One bit written, the others as before (46_psw_ops.md R256). -/
theorem getLsbD_pswSet (p : Word) (i j : Nat) (b : Bool) (hi : i < 16) :
    (pswSet p i b).getLsbD j = if j = i then b else p.getLsbD j := by
  have ht : (BitVec.twoPow 16 i).getLsbD j = decide (j = i) := by
    rw [BitVec.getLsbD_twoPow]
    by_cases h : j = i
    · simp [h, hi]
    · simp [h, Ne.symm h]
  unfold pswSet
  cases b
  · by_cases hj : j < 16
    · by_cases h : j = i <;> simp [h, hj, hi]
    · have : j ≠ i := by omega
      simp [BitVec.getLsbD_of_ge _ _ (Nat.le_of_not_lt hj), this]
  · by_cases h : j = i <;> simp [ht, h, hi]

@[simp] theorem getLsbD_pswSet_self (p : Word) (i : Nat) (b : Bool) (hi : i < 16) :
    (pswSet p i b).getLsbD i = b := by simp [getLsbD_pswSet p i i b hi]

theorem getLsbD_pswSet_ne (p : Word) {i j : Nat} (b : Bool) (hi : i < 16) (h : j ≠ i) :
    (pswSet p i b).getLsbD j = p.getLsbD j := by simp [getLsbD_pswSet p i j b hi, h]

/-- Writing the value a bit has changes nothing. -/
theorem pswSet_same (p : Word) (i : Nat) (b : Bool) (hi : i < 16) (h : p.getLsbD i = b) : pswSet p i b = p := by
  apply BitVec.eq_of_getLsbD_eq
  intro j _
  rw [getLsbD_pswSet p i j b hi]
  split
  · rename_i e; rw [e, h]
  · rfl

/-- The bits of a PSW after N and Z are written. -/
theorem getLsbD_pswSetNZ (p r : Word) (j : Nat) :
    (pswSetNZ p r).getLsbD j = if j = 1 then r == 0 else if j = 0 then r.msb else p.getLsbD j := by
  unfold pswSetNZ
  rw [getLsbD_pswSet _ _ _ _ (by omega), getLsbD_pswSet _ _ _ _ (by omega)]

/-- The bits of a PSW after N and Z of a 32-bit result are written. -/
theorem getLsbD_pswSetNZ32 (p : Word) (r : BitVec 32) (j : Nat) :
    (pswSetNZ32 p r).getLsbD j = if j = 1 then r == 0 else if j = 0 then r.msb else p.getLsbD j := by
  unfold pswSetNZ32
  rw [getLsbD_pswSet _ _ _ _ (by omega), getLsbD_pswSet _ _ _ _ (by omega)]

/-- The bits of a PSW after a 4-bit selector at `lo` and the dual bit above it are written
(46_psw_ops.md R250). -/
theorem getLsbD_pswSelect (p : Word) (lo j : Nat) (r : RegNum) (dual : Bool) (h : lo + 4 < 16) :
    (pswSelect p lo r dual).getLsbD j =
      if j = lo + 4 then dual else if lo ≤ j ∧ j < lo + 4 then r.getLsbD (j - lo) else p.getLsbD j := by
  unfold pswSelect
  rw [getLsbD_pswSet _ _ _ _ (by omega), getLsbD_pswSet _ _ _ _ (by omega), getLsbD_pswSet _ _ _ _ (by omega),
    getLsbD_pswSet _ _ _ _ (by omega), getLsbD_pswSet _ _ _ _ (by omega)]
  by_cases h4 : j = lo + 4
  · simp [h4]
  by_cases h3 : j = lo + 3
  · subst h3; simp
  by_cases h2 : j = lo + 2
  · subst h2; simp
  by_cases h1 : j = lo + 1
  · subst h1; simp
  by_cases h0 : j = lo
  · subst h0; simp
  simp only [h4, h3, h2, h1, h0, if_false]
  rw [if_neg (by omega)]

/-- The bits of a PSW after a shift: N and Z where it writes them, C where it writes it (42_shift.md R182). -/
theorem getLsbD_pswShift (nz : Bool) (p : Word) (o : ShiftOut) (j : Nat) :
    (pswShift nz p o).getLsbD j =
      if j = 3 then o.carry.getD (p.getLsbD 3)
      else if nz = true ∧ j = 1 then o.value == 0 else if nz = true ∧ j = 0 then o.value.msb else p.getLsbD j := by
  have hq : (if nz then pswSetNZ p o.value else p).getLsbD j =
      if nz = true ∧ j = 1 then o.value == 0 else if nz = true ∧ j = 0 then o.value.msb else p.getLsbD j := by
    cases nz <;> simp [getLsbD_pswSetNZ]
  unfold pswShift
  cases h : o.carry with
  | none =>
    simp only [hq]
    by_cases h3 : j = 3
    · subst h3; simp
    · simp [h3]
  | some c =>
    simp only [getLsbD_pswSet _ 3 j c (by omega), hq]
    simp

/-- C after a shift that writes it, in every value of the parameter (42_shift.md R181). -/
theorem carryOut_getD (nm : ShiftNumerics) (n : Nat) (last edge old : Bool) :
    (carryOut nm n last edge).getD old =
      if n = 0 then
        (if nm.zeroFlags = .carryCleared then false else if nm.zeroFlags = .carryEdge then edge else old)
      else if nm.carryOut = .lastOut then last else edge := by
  unfold carryOut
  cases nm.zeroFlags <;> cases nm.carryOut <;> split <;> simp

/-! ## The flags after an update -/

@[simp] theorem pswN_pswSetNZ (p r : Word) : pswN (pswSetNZ p r) = r.msb := getLsbD_pswSetNZ p r 0
@[simp] theorem pswZ_pswSetNZ (p r : Word) : pswZ (pswSetNZ p r) = (r == 0) := getLsbD_pswSetNZ p r 1
@[simp] theorem pswV_pswSetNZ (p r : Word) : pswV (pswSetNZ p r) = pswV p := getLsbD_pswSetNZ p r 2
@[simp] theorem pswC_pswSetNZ (p r : Word) : pswC (pswSetNZ p r) = pswC p := getLsbD_pswSetNZ p r 3
@[simp] theorem pswS_pswSetNZ (p r : Word) : pswS (pswSetNZ p r) = pswS p := getLsbD_pswSetNZ p r 5

@[simp] theorem pswN_pswSetNZ32 (p : Word) (r : BitVec 32) : pswN (pswSetNZ32 p r) = r.msb :=
  getLsbD_pswSetNZ32 p r 0
@[simp] theorem pswZ_pswSetNZ32 (p : Word) (r : BitVec 32) : pswZ (pswSetNZ32 p r) = (r == 0) :=
  getLsbD_pswSetNZ32 p r 1
@[simp] theorem pswV_pswSetNZ32 (p : Word) (r : BitVec 32) : pswV (pswSetNZ32 p r) = pswV p :=
  getLsbD_pswSetNZ32 p r 2
@[simp] theorem pswC_pswSetNZ32 (p : Word) (r : BitVec 32) : pswC (pswSetNZ32 p r) = pswC p :=
  getLsbD_pswSetNZ32 p r 3
@[simp] theorem pswS_pswSetNZ32 (p : Word) (r : BitVec 32) : pswS (pswSetNZ32 p r) = pswS p :=
  getLsbD_pswSetNZ32 p r 5

@[simp] theorem pswN_pswShift (nz : Bool) (p : Word) (o : ShiftOut) :
    pswN (pswShift nz p o) = if nz then o.value.msb else pswN p := by
  unfold pswN; rw [getLsbD_pswShift]; simp
@[simp] theorem pswZ_pswShift (nz : Bool) (p : Word) (o : ShiftOut) :
    pswZ (pswShift nz p o) = if nz then o.value == 0 else pswZ p := by
  unfold pswZ; rw [getLsbD_pswShift]; simp
@[simp] theorem pswV_pswShift (nz : Bool) (p : Word) (o : ShiftOut) : pswV (pswShift nz p o) = pswV p := by
  unfold pswV; rw [getLsbD_pswShift]; simp
@[simp] theorem pswC_pswShift (nz : Bool) (p : Word) (o : ShiftOut) :
    pswC (pswShift nz p o) = o.carry.getD (pswC p) := getLsbD_pswShift nz p o 3
@[simp] theorem pswS_pswShift (nz : Bool) (p : Word) (o : ShiftOut) : pswS (pswShift nz p o) = pswS p := by
  unfold pswS; rw [getLsbD_pswShift]; simp

/-- The I and S bits after a selector write (46_psw_ops.md R250). -/
@[simp] theorem pswS_pswSelect (p : Word) {lo : Nat} (r : RegNum) (d : Bool) (h : 5 < lo ∧ lo < 12) :
    pswS (pswSelect p lo r d) = pswS p := by
  unfold pswS
  rw [getLsbD_pswSelect _ _ _ _ _ (by omega), if_neg (by omega), if_neg (by omega)]

/-- The bits of a PSW after ADD or SUB writes its four flags (41_alu.md R152). -/
theorem getLsbD_pswSetNZVC (p r : Word) (v c : Bool) (j : Nat) :
    (pswSet (pswSet (pswSetNZ p r) 2 v) 3 c).getLsbD j =
      if j = 3 then c else if j = 2 then v else if j = 1 then r == 0 else if j = 0 then r.msb else p.getLsbD j := by
  rw [getLsbD_pswSet _ _ _ _ (by omega), getLsbD_pswSet _ _ _ _ (by omega), getLsbD_pswSetNZ]

end Sys2Proof.Machine
end

