-- ==== Sys2Proof/Laws/State.lean ====
section
/-! SUPPORT. What every named update of the state leaves in every field and accessor. Each field lemma is true by
rfl; the accessor lemmas follow from them. -/

namespace Sys2Proof.Machine

variable (s : State)

/-! ## Fields -/

@[simp] theorem State.setActive_regs (b : Bank) : (s.setActive b).regs = s.regs := rfl
@[simp] theorem State.setActive_view (b : Bank) : (s.setActive b).view = s.view := rfl
@[simp] theorem State.setActive_ds (b : Bank) : (s.setActive b).ds = s.ds := rfl
@[simp] theorem State.setActive_ss (b : Bank) : (s.setActive b).ss = s.ss := rfl
@[simp] theorem State.setActive_es (b : Bank) : (s.setActive b).es = s.es := rfl
@[simp] theorem State.setActive_mem (b : Bank) : (s.setActive b).mem = s.mem := rfl
@[simp] theorem State.setActive_dly (b : Bank) : (s.setActive b).dly = s.dly := rfl
@[simp] theorem State.setActive_halted (b : Bank) : (s.setActive b).halted = s.halted := rfl
@[simp] theorem State.setActive_recent (b : Bank) : (s.setActive b).recent = s.recent := rfl
@[simp] theorem State.setActive_stored (b : Bank) : (s.setActive b).stored = s.stored := rfl
@[simp] theorem State.setActive_cfg (b : Bank) : (s.setActive b).cfg = s.cfg := rfl
@[simp] theorem State.setActive_env (b : Bank) : (s.setActive b).env = s.env := rfl
@[simp] theorem State.setActive_platformIn (b : Bank) : (s.setActive b).platformIn = s.platformIn := rfl
@[simp] theorem State.setActive_platformOut (b : Bank) : (s.setActive b).platformOut = s.platformOut := rfl
@[simp] theorem State.setActive_draws (b : Bank) : (s.setActive b).draws = s.draws := rfl

@[simp] theorem State.setPc_regs (v : Word) : (s.setPc v).regs = s.regs := rfl
@[simp] theorem State.setPc_view (v : Word) : (s.setPc v).view = s.view := rfl
@[simp] theorem State.setPc_ds (v : Word) : (s.setPc v).ds = s.ds := rfl
@[simp] theorem State.setPc_ss (v : Word) : (s.setPc v).ss = s.ss := rfl
@[simp] theorem State.setPc_es (v : Word) : (s.setPc v).es = s.es := rfl
@[simp] theorem State.setPc_mem (v : Word) : (s.setPc v).mem = s.mem := rfl
@[simp] theorem State.setPc_dly (v : Word) : (s.setPc v).dly = s.dly := rfl
@[simp] theorem State.setPc_halted (v : Word) : (s.setPc v).halted = s.halted := rfl
@[simp] theorem State.setPc_recent (v : Word) : (s.setPc v).recent = s.recent := rfl
@[simp] theorem State.setPc_stored (v : Word) : (s.setPc v).stored = s.stored := rfl
@[simp] theorem State.setPc_cfg (v : Word) : (s.setPc v).cfg = s.cfg := rfl
@[simp] theorem State.setPc_env (v : Word) : (s.setPc v).env = s.env := rfl
@[simp] theorem State.setPc_platformIn (v : Word) : (s.setPc v).platformIn = s.platformIn := rfl
@[simp] theorem State.setPc_platformOut (v : Word) : (s.setPc v).platformOut = s.platformOut := rfl
@[simp] theorem State.setPc_draws (v : Word) : (s.setPc v).draws = s.draws := rfl

@[simp] theorem State.setCs_regs (v : Word) : (s.setCs v).regs = s.regs := rfl
@[simp] theorem State.setCs_view (v : Word) : (s.setCs v).view = s.view := rfl
@[simp] theorem State.setCs_ds (v : Word) : (s.setCs v).ds = s.ds := rfl
@[simp] theorem State.setCs_ss (v : Word) : (s.setCs v).ss = s.ss := rfl
@[simp] theorem State.setCs_es (v : Word) : (s.setCs v).es = s.es := rfl
@[simp] theorem State.setCs_mem (v : Word) : (s.setCs v).mem = s.mem := rfl
@[simp] theorem State.setCs_dly (v : Word) : (s.setCs v).dly = s.dly := rfl
@[simp] theorem State.setCs_halted (v : Word) : (s.setCs v).halted = s.halted := rfl
@[simp] theorem State.setCs_recent (v : Word) : (s.setCs v).recent = s.recent := rfl
@[simp] theorem State.setCs_stored (v : Word) : (s.setCs v).stored = s.stored := rfl
@[simp] theorem State.setCs_cfg (v : Word) : (s.setCs v).cfg = s.cfg := rfl
@[simp] theorem State.setCs_env (v : Word) : (s.setCs v).env = s.env := rfl
@[simp] theorem State.setCs_platformIn (v : Word) : (s.setCs v).platformIn = s.platformIn := rfl
@[simp] theorem State.setCs_platformOut (v : Word) : (s.setCs v).platformOut = s.platformOut := rfl
@[simp] theorem State.setCs_draws (v : Word) : (s.setCs v).draws = s.draws := rfl

@[simp] theorem State.setPsw_regs (v : Word) : (s.setPsw v).regs = s.regs := rfl
@[simp] theorem State.setPsw_view (v : Word) : (s.setPsw v).view = s.view := rfl
@[simp] theorem State.setPsw_ds (v : Word) : (s.setPsw v).ds = s.ds := rfl
@[simp] theorem State.setPsw_ss (v : Word) : (s.setPsw v).ss = s.ss := rfl
@[simp] theorem State.setPsw_es (v : Word) : (s.setPsw v).es = s.es := rfl
@[simp] theorem State.setPsw_mem (v : Word) : (s.setPsw v).mem = s.mem := rfl
@[simp] theorem State.setPsw_dly (v : Word) : (s.setPsw v).dly = s.dly := rfl
@[simp] theorem State.setPsw_halted (v : Word) : (s.setPsw v).halted = s.halted := rfl
@[simp] theorem State.setPsw_recent (v : Word) : (s.setPsw v).recent = s.recent := rfl
@[simp] theorem State.setPsw_stored (v : Word) : (s.setPsw v).stored = s.stored := rfl
@[simp] theorem State.setPsw_cfg (v : Word) : (s.setPsw v).cfg = s.cfg := rfl
@[simp] theorem State.setPsw_env (v : Word) : (s.setPsw v).env = s.env := rfl
@[simp] theorem State.setPsw_platformIn (v : Word) : (s.setPsw v).platformIn = s.platformIn := rfl
@[simp] theorem State.setPsw_platformOut (v : Word) : (s.setPsw v).platformOut = s.platformOut := rfl
@[simp] theorem State.setPsw_draws (v : Word) : (s.setPsw v).draws = s.draws := rfl

@[simp] theorem State.setReg_normal (r : RegNum) (v : Word) : (s.setReg r v).normal = s.normal := rfl
@[simp] theorem State.setReg_shadow (r : RegNum) (v : Word) : (s.setReg r v).shadow = s.shadow := rfl
@[simp] theorem State.setReg_view (r : RegNum) (v : Word) : (s.setReg r v).view = s.view := rfl
@[simp] theorem State.setReg_ds (r : RegNum) (v : Word) : (s.setReg r v).ds = s.ds := rfl
@[simp] theorem State.setReg_ss (r : RegNum) (v : Word) : (s.setReg r v).ss = s.ss := rfl
@[simp] theorem State.setReg_es (r : RegNum) (v : Word) : (s.setReg r v).es = s.es := rfl
@[simp] theorem State.setReg_mem (r : RegNum) (v : Word) : (s.setReg r v).mem = s.mem := rfl
@[simp] theorem State.setReg_dly (r : RegNum) (v : Word) : (s.setReg r v).dly = s.dly := rfl
@[simp] theorem State.setReg_halted (r : RegNum) (v : Word) : (s.setReg r v).halted = s.halted := rfl
@[simp] theorem State.setReg_stored (r : RegNum) (v : Word) : (s.setReg r v).stored = s.stored := rfl
@[simp] theorem State.setReg_cfg (r : RegNum) (v : Word) : (s.setReg r v).cfg = s.cfg := rfl
@[simp] theorem State.setReg_env (r : RegNum) (v : Word) : (s.setReg r v).env = s.env := rfl
@[simp] theorem State.setReg_platformIn (r : RegNum) (v : Word) : (s.setReg r v).platformIn = s.platformIn := rfl
@[simp] theorem State.setReg_platformOut (r : RegNum) (v : Word) : (s.setReg r v).platformOut = s.platformOut := rfl
@[simp] theorem State.setReg_draws (r : RegNum) (v : Word) : (s.setReg r v).draws = s.draws := rfl

@[simp] theorem State.setSeg_regs (g : Seg) (v : Word) : (s.setSeg g v).regs = s.regs := rfl
@[simp] theorem State.setSeg_normal (g : Seg) (v : Word) : (s.setSeg g v).normal = s.normal := rfl
@[simp] theorem State.setSeg_shadow (g : Seg) (v : Word) : (s.setSeg g v).shadow = s.shadow := rfl
@[simp] theorem State.setSeg_view (g : Seg) (v : Word) : (s.setSeg g v).view = s.view := rfl
@[simp] theorem State.setSeg_ds (g : Seg) (v : Word) : (s.setSeg g v).ds = if g = .ds then v else s.ds := rfl
@[simp] theorem State.setSeg_ss (g : Seg) (v : Word) : (s.setSeg g v).ss = if g = .ss then v else s.ss := rfl
@[simp] theorem State.setSeg_es (g : Seg) (v : Word) : (s.setSeg g v).es = if g = .es then v else s.es := rfl
@[simp] theorem State.setSeg_mem (g : Seg) (v : Word) : (s.setSeg g v).mem = s.mem := rfl
@[simp] theorem State.setSeg_dly (g : Seg) (v : Word) : (s.setSeg g v).dly = s.dly := rfl
@[simp] theorem State.setSeg_halted (g : Seg) (v : Word) : (s.setSeg g v).halted = s.halted := rfl
@[simp] theorem State.setSeg_recent (g : Seg) (v : Word) : (s.setSeg g v).recent = s.recent := rfl
@[simp] theorem State.setSeg_stored (g : Seg) (v : Word) : (s.setSeg g v).stored = s.stored := rfl
@[simp] theorem State.setSeg_cfg (g : Seg) (v : Word) : (s.setSeg g v).cfg = s.cfg := rfl
@[simp] theorem State.setSeg_env (g : Seg) (v : Word) : (s.setSeg g v).env = s.env := rfl
@[simp] theorem State.setSeg_platformIn (g : Seg) (v : Word) : (s.setSeg g v).platformIn = s.platformIn := rfl
@[simp] theorem State.setSeg_platformOut (g : Seg) (v : Word) : (s.setSeg g v).platformOut = s.platformOut := rfl
@[simp] theorem State.setSeg_draws (g : Seg) (v : Word) : (s.setSeg g v).draws = s.draws := rfl

@[simp] theorem State.setDly_regs (d : Option Transfer) : (s.setDly d).regs = s.regs := rfl
@[simp] theorem State.setDly_normal (d : Option Transfer) : (s.setDly d).normal = s.normal := rfl
@[simp] theorem State.setDly_shadow (d : Option Transfer) : (s.setDly d).shadow = s.shadow := rfl
@[simp] theorem State.setDly_view (d : Option Transfer) : (s.setDly d).view = s.view := rfl
@[simp] theorem State.setDly_ds (d : Option Transfer) : (s.setDly d).ds = s.ds := rfl
@[simp] theorem State.setDly_ss (d : Option Transfer) : (s.setDly d).ss = s.ss := rfl
@[simp] theorem State.setDly_es (d : Option Transfer) : (s.setDly d).es = s.es := rfl
@[simp] theorem State.setDly_mem (d : Option Transfer) : (s.setDly d).mem = s.mem := rfl
@[simp] theorem State.setDly_dly (d : Option Transfer) : (s.setDly d).dly = d := rfl
@[simp] theorem State.setDly_halted (d : Option Transfer) : (s.setDly d).halted = s.halted := rfl
@[simp] theorem State.setDly_recent (d : Option Transfer) : (s.setDly d).recent = s.recent := rfl
@[simp] theorem State.setDly_stored (d : Option Transfer) : (s.setDly d).stored = s.stored := rfl
@[simp] theorem State.setDly_cfg (d : Option Transfer) : (s.setDly d).cfg = s.cfg := rfl
@[simp] theorem State.setDly_env (d : Option Transfer) : (s.setDly d).env = s.env := rfl
@[simp] theorem State.setDly_platformIn (d : Option Transfer) : (s.setDly d).platformIn = s.platformIn := rfl
@[simp] theorem State.setDly_platformOut (d : Option Transfer) : (s.setDly d).platformOut = s.platformOut := rfl
@[simp] theorem State.setDly_draws (d : Option Transfer) : (s.setDly d).draws = s.draws := rfl

@[simp] theorem State.halt_regs : (s.halt).regs = s.regs := rfl
@[simp] theorem State.halt_normal : (s.halt).normal = s.normal := rfl
@[simp] theorem State.halt_shadow : (s.halt).shadow = s.shadow := rfl
@[simp] theorem State.halt_view : (s.halt).view = s.view := rfl
@[simp] theorem State.halt_ds : (s.halt).ds = s.ds := rfl
@[simp] theorem State.halt_ss : (s.halt).ss = s.ss := rfl
@[simp] theorem State.halt_es : (s.halt).es = s.es := rfl
@[simp] theorem State.halt_mem : (s.halt).mem = s.mem := rfl
@[simp] theorem State.halt_dly : (s.halt).dly = s.dly := rfl
@[simp] theorem State.halt_halted : (s.halt).halted = true := rfl
@[simp] theorem State.halt_recent : (s.halt).recent = s.recent := rfl
@[simp] theorem State.halt_stored : (s.halt).stored = s.stored := rfl
@[simp] theorem State.halt_cfg : (s.halt).cfg = s.cfg := rfl
@[simp] theorem State.halt_env : (s.halt).env = s.env := rfl
@[simp] theorem State.halt_platformIn : (s.halt).platformIn = s.platformIn := rfl
@[simp] theorem State.halt_platformOut : (s.halt).platformOut = s.platformOut := rfl
@[simp] theorem State.halt_draws : (s.halt).draws = s.draws := rfl

@[simp] theorem State.setDraws_regs (n : Nat) : (s.setDraws n).regs = s.regs := rfl
@[simp] theorem State.setDraws_normal (n : Nat) : (s.setDraws n).normal = s.normal := rfl
@[simp] theorem State.setDraws_shadow (n : Nat) : (s.setDraws n).shadow = s.shadow := rfl
@[simp] theorem State.setDraws_view (n : Nat) : (s.setDraws n).view = s.view := rfl
@[simp] theorem State.setDraws_ds (n : Nat) : (s.setDraws n).ds = s.ds := rfl
@[simp] theorem State.setDraws_ss (n : Nat) : (s.setDraws n).ss = s.ss := rfl
@[simp] theorem State.setDraws_es (n : Nat) : (s.setDraws n).es = s.es := rfl
@[simp] theorem State.setDraws_mem (n : Nat) : (s.setDraws n).mem = s.mem := rfl
@[simp] theorem State.setDraws_dly (n : Nat) : (s.setDraws n).dly = s.dly := rfl
@[simp] theorem State.setDraws_halted (n : Nat) : (s.setDraws n).halted = s.halted := rfl
@[simp] theorem State.setDraws_recent (n : Nat) : (s.setDraws n).recent = s.recent := rfl
@[simp] theorem State.setDraws_stored (n : Nat) : (s.setDraws n).stored = s.stored := rfl
@[simp] theorem State.setDraws_cfg (n : Nat) : (s.setDraws n).cfg = s.cfg := rfl
@[simp] theorem State.setDraws_env (n : Nat) : (s.setDraws n).env = s.env := rfl
@[simp] theorem State.setDraws_platformIn (n : Nat) : (s.setDraws n).platformIn = s.platformIn := rfl
@[simp] theorem State.setDraws_platformOut (n : Nat) : (s.setDraws n).platformOut = s.platformOut := rfl
@[simp] theorem State.setDraws_draws (n : Nat) : (s.setDraws n).draws = n := rfl

@[simp] theorem State.setPlatformIn_regs (ws : List Word) : (s.setPlatformIn ws).regs = s.regs := rfl
@[simp] theorem State.setPlatformIn_normal (ws : List Word) : (s.setPlatformIn ws).normal = s.normal := rfl
@[simp] theorem State.setPlatformIn_shadow (ws : List Word) : (s.setPlatformIn ws).shadow = s.shadow := rfl
@[simp] theorem State.setPlatformIn_view (ws : List Word) : (s.setPlatformIn ws).view = s.view := rfl
@[simp] theorem State.setPlatformIn_ds (ws : List Word) : (s.setPlatformIn ws).ds = s.ds := rfl
@[simp] theorem State.setPlatformIn_ss (ws : List Word) : (s.setPlatformIn ws).ss = s.ss := rfl
@[simp] theorem State.setPlatformIn_es (ws : List Word) : (s.setPlatformIn ws).es = s.es := rfl
@[simp] theorem State.setPlatformIn_mem (ws : List Word) : (s.setPlatformIn ws).mem = s.mem := rfl
@[simp] theorem State.setPlatformIn_dly (ws : List Word) : (s.setPlatformIn ws).dly = s.dly := rfl
@[simp] theorem State.setPlatformIn_halted (ws : List Word) : (s.setPlatformIn ws).halted = s.halted := rfl
@[simp] theorem State.setPlatformIn_recent (ws : List Word) : (s.setPlatformIn ws).recent = s.recent := rfl
@[simp] theorem State.setPlatformIn_stored (ws : List Word) : (s.setPlatformIn ws).stored = s.stored := rfl
@[simp] theorem State.setPlatformIn_cfg (ws : List Word) : (s.setPlatformIn ws).cfg = s.cfg := rfl
@[simp] theorem State.setPlatformIn_env (ws : List Word) : (s.setPlatformIn ws).env = s.env := rfl
@[simp] theorem State.setPlatformIn_platformIn (ws : List Word) : (s.setPlatformIn ws).platformIn = ws := rfl
@[simp] theorem State.setPlatformIn_platformOut (ws : List Word) : (s.setPlatformIn ws).platformOut = s.platformOut := rfl
@[simp] theorem State.setPlatformIn_draws (ws : List Word) : (s.setPlatformIn ws).draws = s.draws := rfl

@[simp] theorem State.platformWrite_regs (a : PhysAddr) (v : Word) : (s.platformWrite a v).regs = s.regs := rfl
@[simp] theorem State.platformWrite_normal (a : PhysAddr) (v : Word) : (s.platformWrite a v).normal = s.normal := rfl
@[simp] theorem State.platformWrite_shadow (a : PhysAddr) (v : Word) : (s.platformWrite a v).shadow = s.shadow := rfl
@[simp] theorem State.platformWrite_view (a : PhysAddr) (v : Word) : (s.platformWrite a v).view = s.view := rfl
@[simp] theorem State.platformWrite_ds (a : PhysAddr) (v : Word) : (s.platformWrite a v).ds = s.ds := rfl
@[simp] theorem State.platformWrite_ss (a : PhysAddr) (v : Word) : (s.platformWrite a v).ss = s.ss := rfl
@[simp] theorem State.platformWrite_es (a : PhysAddr) (v : Word) : (s.platformWrite a v).es = s.es := rfl
@[simp] theorem State.platformWrite_mem (a : PhysAddr) (v : Word) : (s.platformWrite a v).mem = s.mem := rfl
@[simp] theorem State.platformWrite_dly (a : PhysAddr) (v : Word) : (s.platformWrite a v).dly = s.dly := rfl
@[simp] theorem State.platformWrite_halted (a : PhysAddr) (v : Word) : (s.platformWrite a v).halted = s.halted := rfl
@[simp] theorem State.platformWrite_recent (a : PhysAddr) (v : Word) : (s.platformWrite a v).recent = s.recent := rfl
@[simp] theorem State.platformWrite_stored (a : PhysAddr) (v : Word) : (s.platformWrite a v).stored = s.stored := rfl
@[simp] theorem State.platformWrite_cfg (a : PhysAddr) (v : Word) : (s.platformWrite a v).cfg = s.cfg := rfl
@[simp] theorem State.platformWrite_env (a : PhysAddr) (v : Word) : (s.platformWrite a v).env = s.env := rfl
@[simp] theorem State.platformWrite_platformIn (a : PhysAddr) (v : Word) : (s.platformWrite a v).platformIn = s.platformIn := rfl
@[simp] theorem State.platformWrite_platformOut (a : PhysAddr) (v : Word) : (s.platformWrite a v).platformOut = s.platformOut ++ [⟨a, v⟩] := rfl
@[simp] theorem State.platformWrite_draws (a : PhysAddr) (v : Word) : (s.platformWrite a v).draws = s.draws := rfl

@[simp] theorem State.storeMem_regs (a : PhysAddr) (v : Word) : (s.storeMem a v).regs = s.regs := rfl
@[simp] theorem State.storeMem_normal (a : PhysAddr) (v : Word) : (s.storeMem a v).normal = s.normal := rfl
@[simp] theorem State.storeMem_shadow (a : PhysAddr) (v : Word) : (s.storeMem a v).shadow = s.shadow := rfl
@[simp] theorem State.storeMem_view (a : PhysAddr) (v : Word) : (s.storeMem a v).view = s.view := rfl
@[simp] theorem State.storeMem_ds (a : PhysAddr) (v : Word) : (s.storeMem a v).ds = s.ds := rfl
@[simp] theorem State.storeMem_ss (a : PhysAddr) (v : Word) : (s.storeMem a v).ss = s.ss := rfl
@[simp] theorem State.storeMem_es (a : PhysAddr) (v : Word) : (s.storeMem a v).es = s.es := rfl
@[simp] theorem State.storeMem_mem (a : PhysAddr) (v : Word) : (s.storeMem a v).mem = writeWord s.mem a v := rfl
@[simp] theorem State.storeMem_dly (a : PhysAddr) (v : Word) : (s.storeMem a v).dly = s.dly := rfl
@[simp] theorem State.storeMem_halted (a : PhysAddr) (v : Word) : (s.storeMem a v).halted = s.halted := rfl
@[simp] theorem State.storeMem_recent (a : PhysAddr) (v : Word) : (s.storeMem a v).recent = s.recent := rfl
@[simp] theorem State.storeMem_stored (a : PhysAddr) (v : Word) : (s.storeMem a v).stored = ⟨a, readWord s.mem a, 0⟩ :: s.stored := rfl
@[simp] theorem State.storeMem_cfg (a : PhysAddr) (v : Word) : (s.storeMem a v).cfg = s.cfg := rfl
@[simp] theorem State.storeMem_env (a : PhysAddr) (v : Word) : (s.storeMem a v).env = s.env := rfl
@[simp] theorem State.storeMem_platformIn (a : PhysAddr) (v : Word) : (s.storeMem a v).platformIn = s.platformIn := rfl
@[simp] theorem State.storeMem_platformOut (a : PhysAddr) (v : Word) : (s.storeMem a v).platformOut = s.platformOut := rfl
@[simp] theorem State.storeMem_draws (a : PhysAddr) (v : Word) : (s.storeMem a v).draws = s.draws := rfl

@[simp] theorem State.nextBoundary_regs : (s.nextBoundary).regs = s.regs := rfl
@[simp] theorem State.nextBoundary_normal : (s.nextBoundary).normal = s.normal := rfl
@[simp] theorem State.nextBoundary_shadow : (s.nextBoundary).shadow = s.shadow := rfl
@[simp] theorem State.nextBoundary_view : (s.nextBoundary).view = s.view := rfl
@[simp] theorem State.nextBoundary_ds : (s.nextBoundary).ds = s.ds := rfl
@[simp] theorem State.nextBoundary_ss : (s.nextBoundary).ss = s.ss := rfl
@[simp] theorem State.nextBoundary_es : (s.nextBoundary).es = s.es := rfl
@[simp] theorem State.nextBoundary_mem : (s.nextBoundary).mem = s.mem := rfl
@[simp] theorem State.nextBoundary_dly : (s.nextBoundary).dly = s.dly := rfl
@[simp] theorem State.nextBoundary_halted : (s.nextBoundary).halted = s.halted := rfl
@[simp] theorem State.nextBoundary_recent : (s.nextBoundary).recent = s.recent := rfl
@[simp] theorem State.nextBoundary_stored : (s.nextBoundary).stored = s.stored := rfl
@[simp] theorem State.nextBoundary_cfg : (s.nextBoundary).cfg = s.cfg := rfl
@[simp] theorem State.nextBoundary_env : (s.nextBoundary).env = s.env.tail := rfl
@[simp] theorem State.nextBoundary_platformIn : (s.nextBoundary).platformIn = s.platformIn := rfl
@[simp] theorem State.nextBoundary_platformOut : (s.nextBoundary).platformOut = s.platformOut := rfl
@[simp] theorem State.nextBoundary_draws : (s.nextBoundary).draws = s.draws := rfl

@[simp] theorem flush_regs : (flush s).regs = s.regs := rfl
@[simp] theorem flush_normal : (flush s).normal = s.normal := rfl
@[simp] theorem flush_shadow : (flush s).shadow = s.shadow := rfl
@[simp] theorem flush_view : (flush s).view = s.view := rfl
@[simp] theorem flush_ds : (flush s).ds = s.ds := rfl
@[simp] theorem flush_ss : (flush s).ss = s.ss := rfl
@[simp] theorem flush_es : (flush s).es = s.es := rfl
@[simp] theorem flush_mem : (flush s).mem = s.mem := rfl
@[simp] theorem flush_dly : (flush s).dly = s.dly := rfl
@[simp] theorem flush_halted : (flush s).halted = s.halted := rfl
@[simp] theorem flush_recent : (flush s).recent = [] := rfl
@[simp] theorem flush_stored : (flush s).stored = [] := rfl
@[simp] theorem flush_cfg : (flush s).cfg = s.cfg := rfl
@[simp] theorem flush_env : (flush s).env = s.env := rfl
@[simp] theorem flush_platformIn : (flush s).platformIn = s.platformIn := rfl
@[simp] theorem flush_platformOut : (flush s).platformOut = s.platformOut := rfl
@[simp] theorem flush_draws : (flush s).draws = s.draws := rfl

@[simp] theorem ageWindows_regs : (ageWindows s).regs = s.regs := rfl
@[simp] theorem ageWindows_normal : (ageWindows s).normal = s.normal := rfl
@[simp] theorem ageWindows_shadow : (ageWindows s).shadow = s.shadow := rfl
@[simp] theorem ageWindows_view : (ageWindows s).view = s.view := rfl
@[simp] theorem ageWindows_ds : (ageWindows s).ds = s.ds := rfl
@[simp] theorem ageWindows_ss : (ageWindows s).ss = s.ss := rfl
@[simp] theorem ageWindows_es : (ageWindows s).es = s.es := rfl
@[simp] theorem ageWindows_mem : (ageWindows s).mem = s.mem := rfl
@[simp] theorem ageWindows_dly : (ageWindows s).dly = s.dly := rfl
@[simp] theorem ageWindows_halted : (ageWindows s).halted = s.halted := rfl
@[simp] theorem ageWindows_cfg : (ageWindows s).cfg = s.cfg := rfl
@[simp] theorem ageWindows_env : (ageWindows s).env = s.env := rfl
@[simp] theorem ageWindows_platformIn : (ageWindows s).platformIn = s.platformIn := rfl
@[simp] theorem ageWindows_platformOut : (ageWindows s).platformOut = s.platformOut := rfl
@[simp] theorem ageWindows_draws : (ageWindows s).draws = s.draws := rfl

/-! ## Accessors of the active view -/

@[simp] theorem State.setActive_active (b : Bank) : (s.setActive b).active = b := by
  cases h : s.view <;> simp [State.active, State.setActive, h]

@[simp] theorem State.setActive_inactive (b : Bank) : (s.setActive b).inactive = s.inactive := by
  cases h : s.view <;> simp [State.inactive, State.setActive, h]

@[simp] theorem State.setPc_active (v : Word) : (s.setPc v).active = { s.active with pc := v } := by
  simp [State.setPc]

@[simp] theorem State.setPc_inactive (v : Word) : (s.setPc v).inactive = s.inactive := by
  simp [State.setPc]

@[simp] theorem State.setPc_pc (v : Word) : (s.setPc v).pc = v := by simp [State.pc]
@[simp] theorem State.setPc_cs (v : Word) : (s.setPc v).cs = s.cs := by simp [State.cs]
@[simp] theorem State.setPc_psw (v : Word) : (s.setPc v).psw = s.psw := by simp [State.psw]

@[simp] theorem State.setCs_active (v : Word) : (s.setCs v).active = { s.active with cs := v } := by
  simp [State.setCs]

@[simp] theorem State.setCs_inactive (v : Word) : (s.setCs v).inactive = s.inactive := by
  simp [State.setCs]

@[simp] theorem State.setCs_pc (v : Word) : (s.setCs v).pc = s.pc := by simp [State.pc]
@[simp] theorem State.setCs_cs (v : Word) : (s.setCs v).cs = v := by simp [State.cs]
@[simp] theorem State.setCs_psw (v : Word) : (s.setCs v).psw = s.psw := by simp [State.psw]

@[simp] theorem State.setPsw_active (v : Word) : (s.setPsw v).active = { s.active with psw := v } := by
  simp [State.setPsw]

@[simp] theorem State.setPsw_inactive (v : Word) : (s.setPsw v).inactive = s.inactive := by
  simp [State.setPsw]

@[simp] theorem State.setPsw_pc (v : Word) : (s.setPsw v).pc = s.pc := by simp [State.pc]
@[simp] theorem State.setPsw_cs (v : Word) : (s.setPsw v).cs = s.cs := by simp [State.cs]
@[simp] theorem State.setPsw_psw (v : Word) : (s.setPsw v).psw = v := by simp [State.psw]

@[simp] theorem State.setReg_active (r : RegNum) (v : Word) : (s.setReg r v).active = s.active := rfl
@[simp] theorem State.setReg_inactive (r : RegNum) (v : Word) : (s.setReg r v).inactive = s.inactive := rfl
@[simp] theorem State.setReg_pc (r : RegNum) (v : Word) : (s.setReg r v).pc = s.pc := rfl
@[simp] theorem State.setReg_cs (r : RegNum) (v : Word) : (s.setReg r v).cs = s.cs := rfl
@[simp] theorem State.setReg_psw (r : RegNum) (v : Word) : (s.setReg r v).psw = s.psw := rfl
@[simp] theorem State.setReg_seg (r : RegNum) (v : Word) (g' : Seg) : (s.setReg r v).seg g' = s.seg g' := by cases g' <;> rfl
@[simp] theorem State.setReg_inSlot (r : RegNum) (v : Word) : (s.setReg r v).inSlot = s.inSlot := rfl

@[simp] theorem State.setSeg_active (g : Seg) (v : Word) : (s.setSeg g v).active = s.active := rfl
@[simp] theorem State.setSeg_inactive (g : Seg) (v : Word) : (s.setSeg g v).inactive = s.inactive := rfl
@[simp] theorem State.setSeg_pc (g : Seg) (v : Word) : (s.setSeg g v).pc = s.pc := rfl
@[simp] theorem State.setSeg_cs (g : Seg) (v : Word) : (s.setSeg g v).cs = s.cs := rfl
@[simp] theorem State.setSeg_psw (g : Seg) (v : Word) : (s.setSeg g v).psw = s.psw := rfl
@[simp] theorem State.setSeg_reg (g : Seg) (v : Word) (r' : RegNum) : (s.setSeg g v).reg r' = s.reg r' := rfl
@[simp] theorem State.setSeg_inSlot (g : Seg) (v : Word) : (s.setSeg g v).inSlot = s.inSlot := rfl

@[simp] theorem State.setDly_active (d : Option Transfer) : (s.setDly d).active = s.active := rfl
@[simp] theorem State.setDly_inactive (d : Option Transfer) : (s.setDly d).inactive = s.inactive := rfl
@[simp] theorem State.setDly_pc (d : Option Transfer) : (s.setDly d).pc = s.pc := rfl
@[simp] theorem State.setDly_cs (d : Option Transfer) : (s.setDly d).cs = s.cs := rfl
@[simp] theorem State.setDly_psw (d : Option Transfer) : (s.setDly d).psw = s.psw := rfl
@[simp] theorem State.setDly_reg (d : Option Transfer) (r' : RegNum) : (s.setDly d).reg r' = s.reg r' := rfl
@[simp] theorem State.setDly_seg (d : Option Transfer) (g' : Seg) : (s.setDly d).seg g' = s.seg g' := by cases g' <;> rfl

@[simp] theorem State.halt_active : (s.halt).active = s.active := rfl
@[simp] theorem State.halt_inactive : (s.halt).inactive = s.inactive := rfl
@[simp] theorem State.halt_pc : (s.halt).pc = s.pc := rfl
@[simp] theorem State.halt_cs : (s.halt).cs = s.cs := rfl
@[simp] theorem State.halt_psw : (s.halt).psw = s.psw := rfl
@[simp] theorem State.halt_reg (r' : RegNum) : (s.halt).reg r' = s.reg r' := rfl
@[simp] theorem State.halt_seg (g' : Seg) : (s.halt).seg g' = s.seg g' := by cases g' <;> rfl
@[simp] theorem State.halt_inSlot : (s.halt).inSlot = s.inSlot := rfl

@[simp] theorem State.setDraws_active (n : Nat) : (s.setDraws n).active = s.active := rfl
@[simp] theorem State.setDraws_inactive (n : Nat) : (s.setDraws n).inactive = s.inactive := rfl
@[simp] theorem State.setDraws_pc (n : Nat) : (s.setDraws n).pc = s.pc := rfl
@[simp] theorem State.setDraws_cs (n : Nat) : (s.setDraws n).cs = s.cs := rfl
@[simp] theorem State.setDraws_psw (n : Nat) : (s.setDraws n).psw = s.psw := rfl
@[simp] theorem State.setDraws_reg (n : Nat) (r' : RegNum) : (s.setDraws n).reg r' = s.reg r' := rfl
@[simp] theorem State.setDraws_seg (n : Nat) (g' : Seg) : (s.setDraws n).seg g' = s.seg g' := by cases g' <;> rfl
@[simp] theorem State.setDraws_inSlot (n : Nat) : (s.setDraws n).inSlot = s.inSlot := rfl

@[simp] theorem State.setPlatformIn_active (ws : List Word) : (s.setPlatformIn ws).active = s.active := rfl
@[simp] theorem State.setPlatformIn_inactive (ws : List Word) : (s.setPlatformIn ws).inactive = s.inactive := rfl
@[simp] theorem State.setPlatformIn_pc (ws : List Word) : (s.setPlatformIn ws).pc = s.pc := rfl
@[simp] theorem State.setPlatformIn_cs (ws : List Word) : (s.setPlatformIn ws).cs = s.cs := rfl
@[simp] theorem State.setPlatformIn_psw (ws : List Word) : (s.setPlatformIn ws).psw = s.psw := rfl
@[simp] theorem State.setPlatformIn_reg (ws : List Word) (r' : RegNum) : (s.setPlatformIn ws).reg r' = s.reg r' := rfl
@[simp] theorem State.setPlatformIn_seg (ws : List Word) (g' : Seg) : (s.setPlatformIn ws).seg g' = s.seg g' := by cases g' <;> rfl
@[simp] theorem State.setPlatformIn_inSlot (ws : List Word) : (s.setPlatformIn ws).inSlot = s.inSlot := rfl

@[simp] theorem State.platformWrite_active (a : PhysAddr) (v : Word) : (s.platformWrite a v).active = s.active := rfl
@[simp] theorem State.platformWrite_inactive (a : PhysAddr) (v : Word) : (s.platformWrite a v).inactive = s.inactive := rfl
@[simp] theorem State.platformWrite_pc (a : PhysAddr) (v : Word) : (s.platformWrite a v).pc = s.pc := rfl
@[simp] theorem State.platformWrite_cs (a : PhysAddr) (v : Word) : (s.platformWrite a v).cs = s.cs := rfl
@[simp] theorem State.platformWrite_psw (a : PhysAddr) (v : Word) : (s.platformWrite a v).psw = s.psw := rfl
@[simp] theorem State.platformWrite_reg (a : PhysAddr) (v : Word) (r' : RegNum) : (s.platformWrite a v).reg r' = s.reg r' := rfl
@[simp] theorem State.platformWrite_seg (a : PhysAddr) (v : Word) (g' : Seg) : (s.platformWrite a v).seg g' = s.seg g' := by cases g' <;> rfl
@[simp] theorem State.platformWrite_inSlot (a : PhysAddr) (v : Word) : (s.platformWrite a v).inSlot = s.inSlot := rfl

@[simp] theorem State.storeMem_active (a : PhysAddr) (v : Word) : (s.storeMem a v).active = s.active := rfl
@[simp] theorem State.storeMem_inactive (a : PhysAddr) (v : Word) : (s.storeMem a v).inactive = s.inactive := rfl
@[simp] theorem State.storeMem_pc (a : PhysAddr) (v : Word) : (s.storeMem a v).pc = s.pc := rfl
@[simp] theorem State.storeMem_cs (a : PhysAddr) (v : Word) : (s.storeMem a v).cs = s.cs := rfl
@[simp] theorem State.storeMem_psw (a : PhysAddr) (v : Word) : (s.storeMem a v).psw = s.psw := rfl
@[simp] theorem State.storeMem_reg (a : PhysAddr) (v : Word) (r' : RegNum) : (s.storeMem a v).reg r' = s.reg r' := rfl
@[simp] theorem State.storeMem_seg (a : PhysAddr) (v : Word) (g' : Seg) : (s.storeMem a v).seg g' = s.seg g' := by cases g' <;> rfl
@[simp] theorem State.storeMem_inSlot (a : PhysAddr) (v : Word) : (s.storeMem a v).inSlot = s.inSlot := rfl

@[simp] theorem State.nextBoundary_active : (s.nextBoundary).active = s.active := rfl
@[simp] theorem State.nextBoundary_inactive : (s.nextBoundary).inactive = s.inactive := rfl
@[simp] theorem State.nextBoundary_pc : (s.nextBoundary).pc = s.pc := rfl
@[simp] theorem State.nextBoundary_cs : (s.nextBoundary).cs = s.cs := rfl
@[simp] theorem State.nextBoundary_psw : (s.nextBoundary).psw = s.psw := rfl
@[simp] theorem State.nextBoundary_reg (r' : RegNum) : (s.nextBoundary).reg r' = s.reg r' := rfl
@[simp] theorem State.nextBoundary_seg (g' : Seg) : (s.nextBoundary).seg g' = s.seg g' := by cases g' <;> rfl
@[simp] theorem State.nextBoundary_inSlot : (s.nextBoundary).inSlot = s.inSlot := rfl

@[simp] theorem flush_active : (flush s).active = s.active := rfl
@[simp] theorem flush_inactive : (flush s).inactive = s.inactive := rfl
@[simp] theorem flush_pc : (flush s).pc = s.pc := rfl
@[simp] theorem flush_cs : (flush s).cs = s.cs := rfl
@[simp] theorem flush_psw : (flush s).psw = s.psw := rfl
@[simp] theorem flush_reg (r' : RegNum) : (flush s).reg r' = s.reg r' := rfl
@[simp] theorem flush_seg (g' : Seg) : (flush s).seg g' = s.seg g' := by cases g' <;> rfl
@[simp] theorem flush_inSlot : (flush s).inSlot = s.inSlot := rfl

@[simp] theorem ageWindows_active : (ageWindows s).active = s.active := rfl
@[simp] theorem ageWindows_inactive : (ageWindows s).inactive = s.inactive := rfl
@[simp] theorem ageWindows_pc : (ageWindows s).pc = s.pc := rfl
@[simp] theorem ageWindows_cs : (ageWindows s).cs = s.cs := rfl
@[simp] theorem ageWindows_psw : (ageWindows s).psw = s.psw := rfl
@[simp] theorem ageWindows_reg (r' : RegNum) : (ageWindows s).reg r' = s.reg r' := rfl
@[simp] theorem ageWindows_seg (g' : Seg) : (ageWindows s).seg g' = s.seg g' := by cases g' <;> rfl
@[simp] theorem ageWindows_inSlot : (ageWindows s).inSlot = s.inSlot := rfl

@[simp] theorem State.setPc_inSlot (v : Word) : (s.setPc v).inSlot = s.inSlot := rfl
@[simp] theorem State.setPc_seg (v : Word) (g : Seg) : (s.setPc v).seg g = s.seg g := by
  cases g <;> simp [State.seg]

@[simp] theorem State.setCs_inSlot (v : Word) : (s.setCs v).inSlot = s.inSlot := rfl
@[simp] theorem State.setCs_reg (v : Word) (r : RegNum) : (s.setCs v).reg r = s.reg r := by
  simp [State.reg]

@[simp] theorem State.setPsw_inSlot (v : Word) : (s.setPsw v).inSlot = s.inSlot := rfl
@[simp] theorem State.setPsw_seg (v : Word) (g : Seg) : (s.setPsw v).seg g = s.seg g := by
  cases g <;> simp [State.seg]
@[simp] theorem State.setPsw_reg (v : Word) (r : RegNum) : (s.setPsw v).reg r = s.reg r := by
  simp [State.reg]

@[simp] theorem State.setDly_inSlot (d : Option Transfer) : (s.setDly d).inSlot = d.isSome := rfl

theorem State.setPc_reg_of_ne (v : Word) {r : RegNum} (h : r ≠ 15) : (s.setPc v).reg r = s.reg r := by
  have : r.toNat < 15 := by
    have := r.isLt
    have : r.toNat ≠ 15 := fun e => h (by apply BitVec.eq_of_toNat_eq; simpa using e)
    omega
  simp [State.reg, this]

/-! ## Registers -/

/-- A register number other than 15 is below 15. -/
theorem regNum_lt {r : RegNum} (h : r ≠ 15) : r.toNat < 15 := by
  have := r.isLt
  have : r.toNat ≠ 15 := fun e => h (by apply BitVec.eq_of_toNat_eq; simpa using e)
  omega

/-- R15 reads as the PC (10_state.md R24). -/
@[simp] theorem State.reg_pc : s.reg 15 = s.pc := by simp [State.reg]

/-- The written register reads as the value written. -/
@[simp] theorem State.setReg_reg_self (v : Word) {r : RegNum} (h : r ≠ 15) : (s.setReg r v).reg r = v := by
  simp [State.reg, State.setReg, regNum_lt h]

/-- Every other register reads as before. -/
theorem State.setReg_reg_of_ne (v : Word) {r r' : RegNum} (h : r' ≠ r) : (s.setReg r v).reg r' = s.reg r' := by
  by_cases h15 : r' = 15
  · subst h15; simp; rfl
  · have hl := regNum_lt h15
    have hne : r.toNat ≠ r'.toNat := fun e => h (BitVec.eq_of_toNat_eq e.symm)
    by_cases hr : r.toNat < 15 <;> simp [State.reg, State.setReg, hl, hr, hne]

/-- A write notes the register and the value it held (10_state.md R34). -/
@[simp] theorem State.setReg_recent (v : Word) {r : RegNum} (h : r ≠ 15) :
    (s.setReg r v).recent = ⟨r, s.reg r, 0⟩ :: s.recent := by
  simp [State.reg, State.setReg, regNum_lt h]

end Sys2Proof.Machine
end

