-- ==== Sys2Proof/Laws/Memory.lean ====
section
/-! SUPPORT. The laws of the memory cells: a read after a write, the canonical form kept by every operation, and the
boot ROM out of reach of stores to ordinary memory. -/

namespace Sys2Proof.Machine

/-! ## One cell -/

theorem readCell_listCell_ne (m : Memory) {a c : Nat} (b : Byte) (h : c ≠ a) :
    readCell (listCell a b m) c = readCell m c := by
  unfold listCell
  split
  · rfl
  · simp [readCell, h]

/-- A write leaves every other cell alone, whatever the list. -/
theorem readCell_writeCell_ne (m : Memory) {a c : Nat} (b : Byte) (h : c ≠ a) :
    readCell (writeCell m a b) c = readCell m c := by
  induction m with
  | nil => simpa [writeCell] using readCell_listCell_ne [] b h
  | cons x m ih =>
    obtain ⟨a', b'⟩ := x
    simp only [writeCell]
    split
    · exact readCell_listCell_ne _ b h
    · split
      · rename_i h1 h2
        subst h2
        rw [readCell_listCell_ne _ b h]
        simp [readCell, h]
      · simp [readCell, ih]

/-- In a list whose addresses rise from above `a`, cell `a` is unlisted. -/
theorem readCell_of_lt (m : Memory) {a : Nat} (h : ∀ c ∈ m, a < c.1) : readCell m a = unlistedByte a := by
  induction m with
  | nil => rfl
  | cons x m ih =>
    have hx := h x (by simp)
    have : a ≠ x.1 := by omega
    simp [readCell, this]
    exact ih fun c hc => h c (by simp [hc])

/-- What `cellsRise` says of a list and its first entry. -/
theorem cellsRise_cons (x : Host.Cell) (m : Memory) :
    cellsRise (x :: m) = true ↔ (∀ c ∈ m, x.1 < c.1) ∧ cellsRise m = true := by
  induction m generalizing x with
  | nil => simp [cellsRise]
  | cons y m ih =>
    have : cellsRise (x :: y :: m) = (decide (x.1 < y.1) && cellsRise (y :: m)) := rfl
    rw [this]
    simp only [Bool.and_eq_true, decide_eq_true_eq, List.mem_cons, forall_eq_or_imp]
    constructor
    · rintro ⟨h1, h2⟩
      exact ⟨⟨h1, fun c hc => lt_trans h1 (((ih y).1 h2).1 c hc)⟩, h2⟩
    · rintro ⟨⟨h1, -⟩, h2⟩
      exact ⟨h1, h2⟩

theorem readCell_listCell_self (m : Memory) (a : Nat) (b : Byte) (h : ∀ c ∈ m, a < c.1) :
    readCell (listCell a b m) a = some b := by
  unfold listCell
  split
  · rename_i e; rw [readCell_of_lt m h, e]
  · simp [readCell]

/-- In a list with rising addresses a written cell reads as the value written. -/
theorem readCell_writeCell_self (m : Memory) (a : Nat) (b : Byte) (h : cellsRise m = true) :
    readCell (writeCell m a b) a = some b := by
  induction m with
  | nil => exact readCell_listCell_self [] a b (by simp)
  | cons x m ih =>
    obtain ⟨a', b'⟩ := x
    obtain ⟨h1, h2⟩ := (cellsRise_cons _ _).1 h
    simp only [writeCell]
    split
    · rename_i hlt
      refine readCell_listCell_self _ a b fun c hc => ?_
      rcases List.mem_cons.1 hc with rfl | hc
      · exact hlt
      · exact lt_trans hlt (h1 c hc)
    · split
      · rename_i e; subst e
        exact readCell_listCell_self m a b h1
      · rename_i hne
        simp [readCell, hne, ih h2]

/-! ## The canonical form -/

/-- What `Memory.wf` says of a list and its first entry. -/
theorem Memory.wf_cons (x : Host.Cell) (m : Memory) :
    Memory.wf (x :: m) = true ↔
      (∀ c ∈ m, x.1 < c.1) ∧ x.1 < 2 ^ 21 ∧ unlistedByte x.1 ≠ some x.2 ∧ Memory.wf m = true := by
  simp only [Memory.wf, Bool.and_eq_true, List.all_cons, decide_eq_true_eq, cellsRise_cons]
  tauto

theorem Memory.wf_cellsRise {m : Memory} (h : Memory.wf m = true) : cellsRise m = true := by
  simp only [Memory.wf, Bool.and_eq_true] at h
  exact h.1

theorem listCell_wf (m : Memory) (a : Nat) (b : Byte) (hm : Memory.wf m = true) (h : ∀ c ∈ m, a < c.1)
    (ha : a < 2 ^ 21) : Memory.wf (listCell a b m) = true := by
  unfold listCell
  split
  · exact hm
  · rename_i e
    exact (Memory.wf_cons _ _).2 ⟨h, ha, e, hm⟩

/-- Every entry of a written list is the written cell or an entry from before. -/
theorem mem_writeCell {m : Memory} {a : Nat} {b : Byte} {c : Host.Cell} (h : c ∈ writeCell m a b) :
    c.1 = a ∨ c ∈ m := by
  induction m with
  | nil =>
    simp only [writeCell, listCell] at h
    split at h
    · exact .inr h
    · simp at h; exact .inl (by rw [h])
  | cons x m ih =>
    obtain ⟨a', b'⟩ := x
    simp only [writeCell] at h
    split at h
    · unfold listCell at h
      split at h
      · exact .inr h
      · rcases List.mem_cons.1 h with rfl | h
        · exact .inl rfl
        · exact .inr h
    · split at h
      · unfold listCell at h
        split at h
        · exact .inr (List.mem_cons_of_mem _ h)
        · rcases List.mem_cons.1 h with rfl | h
          · exact .inl rfl
          · exact .inr (List.mem_cons_of_mem _ h)
      · rcases List.mem_cons.1 h with rfl | h
        · exact .inr (by simp)
        · rcases ih h with h | h
          · exact .inl h
          · exact .inr (List.mem_cons_of_mem _ h)

/-- A cell write keeps the canonical form. -/
theorem writeCell_wf (m : Memory) (a : Nat) (b : Byte) (h : Memory.wf m = true) (ha : a < 2 ^ 21) :
    Memory.wf (writeCell m a b) = true := by
  induction m with
  | nil => exact listCell_wf [] a b h (by simp) ha
  | cons x m ih =>
    obtain ⟨a', b'⟩ := x
    obtain ⟨h1, h2, h3, h4⟩ := (Memory.wf_cons _ _).1 h
    simp only [writeCell]
    split
    · rename_i hlt
      refine listCell_wf _ a b h (fun c hc => ?_) ha
      rcases List.mem_cons.1 hc with rfl | hc
      · exact hlt
      · exact lt_trans hlt (h1 c hc)
    · split
      · rename_i e; subst e
        exact listCell_wf m a b h4 h1 ha
      · rename_i hlt hne
        refine (Memory.wf_cons _ _).2 ⟨fun c hc => ?_, h2, h3, ih h4⟩
        rcases mem_writeCell hc with hc | hc
        · simp only [hc]; omega
        · exact h1 c hc

/-- A word write keeps the canonical form. -/
theorem writeWord_wf (m : Memory) (a : PhysAddr) (v : Word) (h : Memory.wf m = true) :
    Memory.wf (writeWord m a v) = true := by
  have := a.isLt
  exact writeCell_wf _ _ _ (writeCell_wf _ _ _ h (by omega)) (by omega)

/-- The reset memory lists nothing, in canonical form. -/
theorem reset_mem_wf : Memory.wf State.reset.mem = true := rfl

/-! ## Words -/

theorem wordOf_halves (v : Word) : wordOf (hiByte v) (loByte v) = v := by
  unfold wordOf hiByte loByte
  rw [BitVec.extractLsb'_append_extractLsb'_eq_extractLsb' (by rfl)]
  simp

/-- A word write changes the two cells of its word and no other. -/
theorem readCell_writeWord_ne (m : Memory) (a : PhysAddr) (v : Word) {c : Nat}
    (h0 : c ≠ 2 * a.toNat) (h1 : c ≠ 2 * a.toNat + 1) : readCell (writeWord m a v) c = readCell m c := by
  unfold writeWord
  rw [readCell_writeCell_ne _ _ h1, readCell_writeCell_ne _ _ h0]

/-- The written word reads as the value written. -/
theorem readWord_writeWord_self (m : Memory) (a : PhysAddr) (v : Word) (h : Memory.wf m = true) :
    readWord (writeWord m a v) a = some v := by
  have hw := a.isLt
  have h1 : readCell (writeWord m a v) (2 * a.toNat + 1) = some (hiByte v) :=
    readCell_writeCell_self _ _ _ (Memory.wf_cellsRise (writeCell_wf _ _ _ h (by omega)))
  have h0 : readCell (writeWord m a v) (2 * a.toNat) = some (loByte v) := by
    unfold writeWord
    rw [readCell_writeCell_ne _ _ (by omega)]
    exact readCell_writeCell_self _ _ _ (Memory.wf_cellsRise h)
  simp [readWord, h0, h1, wordOf_halves]

/-- Every other word reads as before. -/
theorem readWord_writeWord_ne (m : Memory) {a a' : PhysAddr} (v : Word) (h : a' ≠ a) :
    readWord (writeWord m a v) a' = readWord m a' := by
  have hne : a'.toNat ≠ a.toNat := fun e => h (BitVec.eq_of_toNat_eq e)
  unfold readWord
  rw [readCell_writeWord_ne _ _ _ (by omega) (by omega), readCell_writeWord_ne _ _ _ (by omega) (by omega)]

/-! ## Regions -/

/-- The three regions of the physical map exclude each other (20_memory.md R66). -/
theorem not_isPlatform_of_isBootRom {a : PhysAddr} (h : isBootRom a = true) : isPlatform a = false := by
  simp only [isBootRom, isPlatform, decide_eq_true_eq, Bool.and_eq_false_iff, decide_eq_false_iff_not] at *
  omega

/-- What is neither platform nor boot ROM is the Home Segment. -/
theorem home_of_not {a : PhysAddr} (h1 : isBootRom a = false) (h2 : isPlatform a = false) :
    a.toNat < 0xE0000 := by
  simp only [isBootRom, isPlatform, decide_eq_false_iff_not, Bool.and_eq_false_iff] at *
  omega

/-- A store below the boot ROM leaves every boot ROM byte alone (20_memory.md R73). -/
theorem readCell_writeWord_rom (m : Memory) (a : PhysAddr) (v : Word) (h : a.toNat < bootRomBase) {c : Nat}
    (hc : 2 * bootRomBase ≤ c) : readCell (writeWord m a v) c = readCell m c :=
  readCell_writeWord_ne m a v (by omega) (by omega)

end Sys2Proof.Machine
end

