-- ==== Sys2Proof/Laws/Ops.lean ====
section
/-! SUPPORT. One lemma per shared operation of Machine/Ops.lean and Machine/Operands.lean, saying once all it can
do. -/

namespace Sys2Proof.Machine

/-! ## Free values and reads -/

/-- A choice among present and past values is one of them. -/
theorem chooseOld_mem {α : Type} (cur : α) (olds : List α) (s : State) :
    (chooseOld cur olds s).1 ∈ cur :: olds := by
  unfold chooseOld
  split
  · simp
  · rename_i o os
    rw [List.getD_eq_getElem?_getD]
    have : Config.freeChoice s.draws % (os.length + 2) < (cur :: o :: os).length := by
      simpa using Nat.mod_lt (Config.freeChoice s.draws) (Nat.succ_pos (os.length + 1))
    rw [List.getElem?_eq_getElem this, Option.getD_some]
    exact List.getElem_mem this

/-- A choice draws at most one free value and changes nothing else. -/
theorem chooseOld_state {α : Type} (cur : α) (olds : List α) (s : State) :
    (chooseOld cur olds s).2 = s.setDraws (chooseOld cur olds s).2.draws := by
  unfold chooseOld
  split <;> simp [State.setDraws]

/-- With no earlier value there is nothing to choose. -/
@[simp] theorem chooseOld_nil {α : Type} (cur : α) (s : State) : chooseOld cur [] s = (cur, s) := rfl

/-- A platform read consumes one answer or draws one free value (20_memory.md R71). -/
theorem platformRead_state (s : State) :
    (∃ w ws, s.platformIn = w :: ws ∧ platformRead s = (w, s.setPlatformIn ws)) ∨
    (s.platformIn = [] ∧ platformRead s = (Config.freeWord s.draws, s.setDraws (s.draws + 1))) := by
  unfold platformRead
  split
  · rename_i h; exact .inr ⟨h, rfl⟩
  · rename_i w ws h; exact .inl ⟨w, ws, h, rfl⟩

/-- A data read: a word of memory, a free value for a word nothing has written, or a platform read. -/
theorem loadWord_cases (a : PhysAddr) (s : State) :
    (isPlatform a = true ∧ loadWord a s = platformRead s) ∨
    (∃ w, isPlatform a = false ∧ readWord s.mem a = some w ∧ loadWord a s = (w, s)) ∨
    (isPlatform a = false ∧ readWord s.mem a = none ∧
      loadWord a s = (Config.freeWord s.draws, s.setDraws (s.draws + 1))) := by
  unfold loadWord
  by_cases h : isPlatform a = true
  · exact .inl ⟨h, by simp [h]⟩
  · rw [Bool.not_eq_true] at h
    cases hr : readWord s.mem a with
    | some w => exact .inr (.inl ⟨w, h, rfl, by simp [h]⟩)
    | none => exact .inr (.inr ⟨h, rfl, by simp [h, drawWord]⟩)

/-- The state after a data read: as before, one free value drawn, or one platform answer consumed. -/
theorem loadWord_state (a : PhysAddr) (s : State) :
    (loadWord a s).2 = s ∨ (loadWord a s).2 = s.setDraws (s.draws + 1) ∨
      ∃ ws, (loadWord a s).2 = s.setPlatformIn ws := by
  rcases loadWord_cases a s with ⟨-, h⟩ | ⟨w, -, -, h⟩ | ⟨-, -, h⟩
  · rcases platformRead_state s with ⟨w, ws, -, h'⟩ | ⟨-, h'⟩
    · exact .inr (.inr ⟨ws, by rw [h, h']⟩)
    · exact .inr (.inl (by rw [h, h']))
  · exact .inl (by rw [h])
  · exact .inr (.inl (by rw [h]))

/-- A read of an ordinary word that has a value (20_memory.md R75). -/
theorem loadWord_of_readWord {a : PhysAddr} {s : State} {w : Word} (h : isPlatform a = false)
    (hr : readWord s.mem a = some w) : loadWord a s = (w, s) := by simp [loadWord, h, hr]

/-- The two cases of a store that completes (20_memory.md R71, R73, R78). -/
theorem storeWord_eq_next {a : PhysAddr} {v : Word} {s t : State} :
    storeWord a v s = .next t ↔ isBootRom a = false ∧
      ((isPlatform a = true ∧ t = s.platformWrite a v) ∨ (isPlatform a = false ∧ t = s.storeMem a v)) := by
  unfold storeWord
  cases isBootRom a <;> cases isPlatform a <;> simp [eq_comm]

/-! ## Operands -/

/-- Reading a source operand completes except on R15 in a delay slot (45_control_flow.md R242). -/
theorem readReg_eq_next {r : RegNum} {s t : State} {k : Word → Result} :
    readReg r s k = .next t ↔ (r = 15 → s.dly = none) ∧ k (s.reg r) = .next t := by
  unfold readReg State.inSlot
  by_cases h : r = 15#4 <;> cases hd : s.dly <;> simp [h]

/-- A usable source operand is read. -/
theorem readReg_of_usable {r : RegNum} {s : State} {k : Word → Result} (h : r = 15 → s.dly = none) :
    readReg r s k = k (s.reg r) := by
  unfold readReg State.inSlot
  rw [if_neg]
  rintro ⟨h15, hs⟩
  simp [h h15] at hs

/-- A transfer completes outside a delay slot (45_control_flow.md R243). -/
theorem transfer_eq_next {c : Option Word} {v : Word} {s t : State} :
    transfer c v s = .next t ↔ s.dly = none ∧ t = s.setDly (some ⟨c, v⟩) := by
  unfold transfer State.inSlot
  cases s.dly <;> simp [eq_comm]

/-- The two cases of a register write that completes (10_state.md R25). -/
theorem writeReg_eq_next {r : RegNum} {v : Word} {s t : State} :
    writeReg r v s = .next t ↔
      (r ≠ 15 ∧ t = s.setReg r v) ∨ (r = 15 ∧ s.dly = none ∧ t = s.setDly (some ⟨none, v⟩)) := by
  unfold writeReg
  by_cases h : r = 15#4
  · simp [h, transfer_eq_next]
  · simp [h, eq_comm]

/-- Reading the second ALU2 operand. -/
theorem readSrc_eq_next {x : Src} {s t : State} {k : Word → Result} :
    readSrc x s k = .next t ↔
      (∃ rs, x = .reg rs ∧ (rs = 15 → s.dly = none) ∧ k (s.reg rs) = .next t) ∨
      (∃ v, x = .imm v ∧ k (v.setWidth 16) = .next t) := by
  cases x <;> simp [readSrc, readReg_eq_next]

/-- The address of LD and ST (44_memory_access.md R211, R212). -/
theorem implicitAddr_eq_next {rb : RegNum} {off : BitVec 5} {s t : State} {k : PhysAddr → Result} :
    implicitAddr rb off s k = .next t ↔ (rb = 15 → s.dly = none) ∧
      ∃ g, implicitSeg s rb = some g ∧ k (phys (s.seg g) (effectiveOffset (s.reg rb) off)) = .next t := by
  unfold implicitAddr
  rw [readReg_eq_next]
  cases implicitSeg s rb <;> simp

/-- The address of LDS and STS (44_memory_access.md R216, R217). -/
theorem explicitAddr_eq_next {g : Seg} {rs : RegNum} {s t : State} {k : PhysAddr → Result} :
    explicitAddr g rs s k = .next t ↔ (rs = 15 → s.dly = none) ∧ k (phys (s.seg g) (s.reg rs)) = .next t := by
  unfold explicitAddr
  rw [readReg_eq_next]

/-! ## Address arithmetic -/

/-- `phys` as numbers (20_memory.md R62). -/
theorem phys_toNat (seg off : Word) : (phys seg off).toNat = (seg.toNat * 16 + off.toNat) % 2 ^ 20 := by
  have hs := seg.isLt
  have ho := off.isLt
  simp only [phys, BitVec.toNat_add, BitVec.toNat_shiftLeft, BitVec.toNat_setWidth, Nat.shiftLeft_eq]
  omega

/-! ## Interrupts -/

/-- The bits of the PSW interrupt entry writes: S = 1, I = 0, the rest copied (60_exceptions.md R326). -/
theorem getLsbD_entryPsw (p : Word) (j : Nat) :
    (entryPsw p).getLsbD j = if j = 4 then false else if j = 5 then true else p.getLsbD j := by
  unfold entryPsw
  rw [getLsbD_pswSet _ _ _ _ (by omega), getLsbD_pswSet _ _ _ _ (by omega)]

/-- Interrupt entry: the view, the shadow bank, the pending transfer, the two windows, and at most one input
(60_exceptions.md R326). -/
theorem interruptEntry_eq (v : EntryVector) (s : State) :
    interruptEntry v s = { (loadWord (vectorAddr v) s).2 with
      view := .shadow
      shadow := ⟨(loadWord (vectorAddr v) s).1, 0x0000, entryPsw s.psw⟩
      dly := none
      recent := []
      stored := [] } := rfl

/-- Return from interrupt (47_system.md R274). -/
theorem interruptReturn_eq (s : State) :
    interruptReturn s = { s with view := .normal, recent := [], stored := [] } := rfl

end Sys2Proof.Machine
end

