-- ==== Sys2Proof/Laws/Effects.lean ====
section
/-! SUPPORT. What an instruction can do, said once: every completed instruction other than SWI and RETI is a chain of
the primitive updates below, so a property every update keeps is one every such instruction keeps. -/

namespace Sys2Proof.Machine

/-- The primitive updates, each with the condition under which an instruction makes it. -/
inductive Update : State → State → Prop
  | setReg (s : State) (r : RegNum) (v : Word) (h : r ≠ 15) : Update s (s.setReg r v)
  | setDly (s : State) (d : Transfer) (h : s.dly = none) : Update s (s.setDly (some d))
  | setPsw (s : State) (p : Word) (h : pswS p = pswS s.psw) : Update s (s.setPsw p)
  | setSeg (s : State) (g : Seg) (v : Word) (h : g ≠ .cs) : Update s (s.setSeg g v)
  | halt (s : State) : Update s s.halt
  | setDraws (s : State) (n : Nat) : Update s (s.setDraws n)
  | setPlatformIn (s : State) (ws : List Word) : Update s (s.setPlatformIn ws)
  | platformWrite (s : State) (a : PhysAddr) (v : Word) (h : isPlatform a = true) : Update s (s.platformWrite a v)
  | storeMem (s : State) (a : PhysAddr) (v : Word) (h : a.toNat < 0xE0000) : Update s (s.storeMem a v)
  | flush (s : State) : Update s (flush s)

/-- A chain of updates. -/
abbrev Updates : State → State → Prop := Relation.ReflTransGen Update

/-- A property every update keeps is kept by every chain. -/
theorem Updates.keep {P : State → Prop} (hP : ∀ s t, Update s t → P s → P t) {s t : State} (h : Updates s t)
    (hs : P s) : P t := by
  induction h with
  | refl => exact hs
  | tail _ hu ih => exact hP _ _ hu ih

/-- A part of the state no update changes is the same at the end of a chain. -/
theorem Updates.same {α : Type} {f : State → α} (hf : ∀ s t, Update s t → f t = f s) {s t : State}
    (h : Updates s t) : f t = f s :=
  Updates.keep (P := fun x => f x = f s) (fun a b hab ha => (hf a b hab).trans ha) h rfl

/-! ## The shared operations as chains -/

theorem updates_one {s t : State} (h : Update s t) : Updates s t := .single h

theorem writeReg_updates {r : RegNum} {v : Word} {s t : State} (h : writeReg r v s = .next t) : Updates s t := by
  rcases writeReg_eq_next.1 h with ⟨h15, rfl⟩ | ⟨-, hd, rfl⟩
  · exact updates_one (.setReg s r v h15)
  · exact updates_one (.setDly s _ hd)

theorem transfer_updates {c : Option Word} {v : Word} {s t : State} (h : transfer c v s = .next t) :
    Updates s t := by
  obtain ⟨hd, rfl⟩ := transfer_eq_next.1 h
  exact updates_one (.setDly s _ hd)

theorem loadWord_updates (a : PhysAddr) (s : State) : Updates s (loadWord a s).2 := by
  rcases loadWord_state a s with h | h | ⟨ws, h⟩ <;> rw [h]
  · exact updates_one (.setDraws s _)
  · exact updates_one (.setPlatformIn s ws)

theorem storeWord_updates {a : PhysAddr} {v : Word} {s t : State} (h : storeWord a v s = .next t) :
    Updates s t := by
  rcases storeWord_eq_next.1 h with ⟨hb, ⟨hp, rfl⟩ | ⟨hp, rfl⟩⟩
  · exact updates_one (.platformWrite s a v hp)
  · exact updates_one (.storeMem s a v (home_of_not hb hp))

theorem readSrc_updates {x : Src} {s t : State} {k : Word → Result} (hk : ∀ v, k v = .next t → Updates s t)
    (h : readSrc x s k = .next t) : Updates s t := by
  rcases readSrc_eq_next.1 h with ⟨_, -, -, h⟩ | ⟨_, -, h⟩ <;> exact hk _ h

theorem alu2_updates {f : Params → Word → Word → Word → AluOut} {w : Bool} {rd : RegNum} {x : Src} {s t : State}
    (hf : ∀ cfg p a b, pswS (f cfg p a b).psw = pswS p) (h : alu2 f w rd x s = .next t) : Updates s t := by
  unfold alu2 at h
  refine readSrc_updates (fun b hb => ?_) (readReg_eq_next.1 h).2
  cases w
  · obtain rfl := by simpa using hb
    exact updates_one (.setPsw s _ (hf _ _ _ _))
  · exact (updates_one (.setPsw s _ (hf _ _ _ _))).trans (writeReg_updates hb)

theorem shiftOp_updates {f : Params → Bool → Word → Nat → ShiftOut} {rd : RegNum} {n : BitVec 3} {s t : State}
    (h : shiftOp f rd n s = .next t) : Updates s t := by
  have h := (readReg_eq_next.1 h).2
  refine (updates_one (.setPsw s _ ?_)).trans (writeReg_updates h)
  simp

theorem single_updates {f : Word → Word} {rx : RegNum} {s t : State} (h : single f rx s = .next t) :
    Updates s t := writeReg_updates (readReg_eq_next.1 h).2

theorem writePair_updates {r : RegNum} {lo hi : Word} {s t : State} (h : writePair r lo hi s = .next t) :
    Updates s t := by
  unfold writePair at h
  split at h
  · rename_i m hm
    exact (writeReg_updates hm).trans (writeReg_updates h)
  · cases h
  · cases h

/-- Division draws: none, one or four free values. -/
theorem divide_state (a b : Word) (s : State) : (divide a b s).2 = s.setDraws (divide a b s).2.draws := by
  unfold divide
  split
  · rfl
  · split <;> rfl

theorem divide_updates (a b : Word) (s : State) : Updates s (divide a b s).2 := by
  rw [divide_state]
  exact updates_one (.setDraws s _)

theorem divFlags_updates (o : DivOut) (s : State) : Updates s (divFlags o s) := by
  refine updates_one (.setPsw s _ ?_)
  rw [pswS, getLsbD_pswSet _ _ _ _ (by omega), getLsbD_pswSet _ _ _ _ (by omega)]
  rfl

theorem multiply32_updates {w : Bool} {rd rs : RegNum} {s t : State} (h : multiply32 w rd rs s = .next t) :
    Updates s t := by
  unfold multiply32 at h
  split at h
  · have h := (readReg_eq_next.1 (readReg_eq_next.1 h).2).2
    unfold multiplyInto at h
    have hp : ∀ p : BitVec 32, Updates s (s.setPsw (pswSetNZ32 s.psw p)) := fun p =>
      updates_one (.setPsw s _ (by simp))
    cases w
    · obtain rfl := by simpa using h
      exact hp _
    · exact (hp _).trans (writePair_updates h)
  · cases h

theorem divide16_updates {w : Bool} {rd rs : RegNum} {s t : State} (h : divide16 w rd rs s = .next t) :
    Updates s t := by
  have h := (readReg_eq_next.1 (readReg_eq_next.1 h).2).2
  refine ((divide_updates (s.reg rd) (s.reg rs) s).trans
    (divFlags_updates (divide (s.reg rd) (s.reg rs) s).1 _)).trans ?_
  cases w
  · obtain rfl := by simpa using h
    exact .refl
  · exact writeReg_updates h

theorem divide32_updates {w : Bool} {rd rs : RegNum} {s t : State} (h : divide32 w rd rs s = .next t) :
    Updates s t := by
  unfold divide32 at h
  split at h
  · have h := (readReg_eq_next.1 (readReg_eq_next.1 h).2).2
    refine ((divide_updates (s.reg rd) (s.reg rs) s).trans
      (divFlags_updates (divide (s.reg rd) (s.reg rs) s).1 _)).trans ?_
    cases w
    · obtain rfl := by simpa using h
      exact .refl
    · exact writePair_updates h
  · cases h

theorem loadInto_updates {rd : RegNum} {a : PhysAddr} {s t : State} (h : loadInto rd a s = .next t) :
    Updates s t := (loadWord_updates a s).trans (writeReg_updates h)

theorem storeFrom_updates {rd : RegNum} {a : PhysAddr} {s t : State} (h : storeFrom rd a s = .next t) :
    Updates s t := storeWord_updates (readReg_eq_next.1 h).2

theorem jumpIf_updates {c : Bool} {target : BitVec 9} {s t : State} (h : jumpIf c target s = .next t) :
    Updates s t := by
  cases c
  · obtain rfl := by simpa [jumpIf] using h
    exact .refl
  · exact transfer_updates h

theorem selectStack_updates {rx : RegNum} {d : Bool} {s t : State} (h : selectStack rx d s = .next t) :
    Updates s t := by
  obtain rfl := by simpa [selectStack] using h
  exact updates_one (.setPsw s _ (by simp))

theorem selectExtra_updates {rx : RegNum} {d : Bool} {s t : State} (h : selectExtra rx d s = .next t) :
    Updates s t := by
  obtain rfl := by simpa [selectExtra] using h
  exact updates_one (.setPsw s _ (by simp))

/-- When a PSW bit write completes, and to what (46_psw_ops.md R256, R261, R262). -/
theorem writePswBit_eq_next {i : Nat} {b : Bool} {s t : State} :
    writePswBit i b s = .next t ↔ i ≤ 15 ∧ (i = 5 → pswS s.psw = b) ∧ t = s.setPsw (pswSet s.psw i b) := by
  unfold writePswBit
  by_cases h : 15 < i
  · simp [h]
  · by_cases h' : i = 5 ∧ pswS s.psw ≠ b
    · simp [h']
    · rw [if_neg h, if_neg h']
      simp only [not_and, ne_eq, not_not] at h'
      simp [Nat.le_of_not_lt h, eq_comm]
      tauto

theorem writePswBit_updates {i : Nat} {b : Bool} {s t : State} (h : writePswBit i b s = .next t) :
    Updates s t := by
  obtain ⟨hi, h5, rfl⟩ := writePswBit_eq_next.1 h
  refine updates_one (.setPsw s _ ?_)
  unfold pswS
  rw [getLsbD_pswSet _ _ _ _ (by omega)]
  split
  · rename_i e; exact (h5 e.symm).symm
  · rfl

theorem archRead_updates (r : RegNum) (s : State) : Updates s (archRead r s).2 := by
  unfold archRead
  rw [chooseOld_state]
  exact updates_one (.setDraws s _)

theorem pswS_addOut (cfg : Params) (p a b : Word) : pswS (addOut cfg p a b).psw = pswS p :=
  getLsbD_pswSetNZVC _ _ _ _ 5

theorem pswS_subOut (cfg : Params) (p a b : Word) : pswS (subOut cfg p a b).psw = pswS p :=
  getLsbD_pswSetNZVC _ _ _ _ 5

theorem pswS_andOut (cfg : Params) (p a b : Word) : pswS (andOut cfg p a b).psw = pswS p := pswS_pswSetNZ _ _

theorem pswS_orOut (cfg : Params) (p a b : Word) : pswS (orOut cfg p a b).psw = pswS p := pswS_pswSetNZ _ _

theorem pswS_xorOut (cfg : Params) (p a b : Word) : pswS (xorOut cfg p a b).psw = pswS p := pswS_pswSetNZ _ _

theorem pswS_mulOut (cfg : Params) (p a b : Word) : pswS (mulOut cfg p a b).psw = pswS p := pswS_pswSetNZ _ _

/-- Every completed instruction other than SWI and RETI is a chain of updates. -/
theorem exec_updates {i : Instr} {s t : State} (h : exec i s = .next t) (hs : i ≠ .swi) (hr : i ≠ .reti) :
    Updates s t := by
  cases i <;> simp only [exec] at h
  case swi => exact absurd rfl hs
  case reti => exact absurd rfl hr
  case ldi | lsi | mvsFrom | smvApc | smvApsw | smvPsw | smvAcs => exact writeReg_updates h
  case mov => exact writeReg_updates (readReg_eq_next.1 h).2
  case amv rd rs =>
    unfold execAmv at h
    split at h
    · exact writeReg_updates h
    · exact (archRead_updates rs s).trans (writeReg_updates h)
  case addR | addI | anwR | anwI => exact alu2_updates pswS_addOut h
  case subR | subI | cmpR | cmpI => exact alu2_updates pswS_subOut h
  case andR | andI | tstR | tstI => exact alu2_updates pswS_andOut h
  case orR | orI | onwR | onwI => exact alu2_updates pswS_orOut h
  case xorR | xorI | tbcR | tbcI => exact alu2_updates pswS_xorOut h
  case mul | mnw => exact alu2_updates pswS_mulOut h
  case mul32 | mnw32 => exact multiply32_updates h
  case div | dnw => exact divide16_updates h
  case div32 | dnw32 => exact divide32_updates h
  case sl | slc | sr | src | sra | sac | ror | roc => exact shiftOp_updates h
  case swb | inv | neg => exact single_updates h
  case ld =>
    obtain ⟨-, g, -, h⟩ := implicitAddr_eq_next.1 h
    exact loadInto_updates h
  case st =>
    obtain ⟨-, g, -, h⟩ := implicitAddr_eq_next.1 h
    exact storeFrom_updates h
  case lds => exact loadInto_updates (explicitAddr_eq_next.1 h).2
  case sts => exact storeFrom_updates (explicitAddr_eq_next.1 h).2
  case jz | jnz | jc | jnc | jn | jnn | jo | jno => exact jumpIf_updates h
  case jml =>
    unfold execJml at h
    split at h
    · exact transfer_updates (readReg_eq_next.1 (readReg_eq_next.1 h).2).2
    · cases h
  case srs | srd => exact selectStack_updates h
  case ers | erd => exact selectExtra_updates h
  case set | clr | set2 | clr2 => exact writePswBit_updates h
  case mvsTo g rd =>
    unfold execMvsTo at h
    split at h
    · cases h
    · rename_i hg
      obtain ⟨-, h⟩ := readReg_eq_next.1 h
      obtain rfl := by simpa using h
      exact updates_one (.setSeg s g _ hg)
  case nop => obtain rfl := by simpa [execNop] using h
              exact .refl
  case fsh => obtain rfl := by simpa [execFsh] using h
              exact updates_one (.flush s)
  case hlt => obtain rfl := by simpa [execHlt] using h
              exact updates_one (.halt s)

/-- The two instructions that switch the view. -/
theorem execSwi_eq_next {s t : State} : execSwi s = .next t ↔ s.dly = none ∧ t = interruptEntry .swi s := by
  unfold execSwi State.inSlot
  cases s.dly <;> simp [eq_comm]

theorem execReti_eq_next {s t : State} : execReti s = .next t ↔ s.dly = none ∧ t = interruptReturn s := by
  unfold execReti State.inSlot
  cases s.dly <;> simp [eq_comm]

end Sys2Proof.Machine
end

