-- ==== Sys2Proof/Laws/Encoding.lean ====
section
/-! SUPPORT. The instruction formats bit by bit (30_encoding.md R93 to R104): every bit of every encoded format, the
fields read back from it, and its number of leading ones. -/

namespace Sys2Proof

/-- A bit of two fields side by side. -/
theorem getLsbD_pair {n m : Nat} (x : BitVec n) (y : BitVec m) (j : Nat) :
    (x ++ y).getLsbD j = if j < m then y.getLsbD j else x.getLsbD (j - m) := by
  rw [BitVec.getLsbD_append]

/-- A field of a word, bit by bit. -/
theorem getLsbD_field (w : Word) (lo len j : Nat) :
    (field w lo len).getLsbD j = (decide (j < len) && w.getLsbD (lo + j)) := by
  simp [field]

/-- A field is what its bits are. -/
theorem field_eq {w : Word} {lo len : Nat} {x : BitVec len} (h : ∀ j < len, w.getLsbD (lo + j) = x.getLsbD j) :
    field w lo len = x := by
  apply BitVec.eq_of_getLsbD_eq
  intro j hj
  rw [getLsbD_field, h j hj]
  simp [hj]

/-- A run of `k` ones ended by a zero counts `k` (30_encoding.md R91). -/
theorem leadingOnes_eq {w : Word} {n k : Nat} (hk : k < n) (h1 : ∀ j < k, w.getLsbD (n - 1 - j) = true)
    (h0 : w.getLsbD (n - 1 - k) = false) : leadingOnes w n = k := by
  induction n generalizing k with
  | zero => omega
  | succ n ih =>
    cases k with
    | zero => simp only [Nat.add_sub_cancel, Nat.sub_zero] at h0; simp [leadingOnes, h0]
    | succ k =>
      have hn : w.getLsbD n = true := by simpa using h1 0 (by omega)
      simp only [leadingOnes, hn, if_true]
      rw [ih (k := k) (by omega)]
      · intro j hj
        have := h1 (j + 1) (by omega)
        rwa [show n + 1 - 1 - (j + 1) = n - 1 - j by omega] at this
      · rwa [show n + 1 - 1 - (k + 1) = n - 1 - k by omega] at h0


/-! ## LdSt -/

theorem getLsbD_encodeLdSt (d : BitVec 1) (rd rb : RegNum) (off : BitVec 5) (j : Nat) :
    (encodeLdSt d rd rb off).getLsbD j =
      if j < 5 then off.getLsbD j else if j < 9 then rb.getLsbD (j - 5) else
      if j < 13 then rd.getLsbD (j - 9) else if j < 14 then d.getLsbD (j - 13) else (0b10#2).getLsbD (j - 14) := by
  change (0b10#2 ++ d ++ rd ++ rb ++ off : BitVec (2 + 1 + 4 + 4 + 5)).getLsbD j = _
  rw [getLsbD_pair, getLsbD_pair, getLsbD_pair, getLsbD_pair]
  simp only [Nat.sub_sub]
  split_ifs <;> first | rfl | omega

theorem encodeLdSt_off (d : BitVec 1) (rd rb : RegNum) (off : BitVec 5) : field (encodeLdSt d rd rb off) 0 5 = off := by
  apply field_eq
  intro j hj
  rw [getLsbD_encodeLdSt]
  interval_cases j <;> rfl

theorem encodeLdSt_rb (d : BitVec 1) (rd rb : RegNum) (off : BitVec 5) : field (encodeLdSt d rd rb off) 5 4 = rb := by
  apply field_eq
  intro j hj
  rw [getLsbD_encodeLdSt]
  interval_cases j <;> rfl

theorem encodeLdSt_rd (d : BitVec 1) (rd rb : RegNum) (off : BitVec 5) : field (encodeLdSt d rd rb off) 9 4 = rd := by
  apply field_eq
  intro j hj
  rw [getLsbD_encodeLdSt]
  interval_cases j <;> rfl

theorem encodeLdSt_d (d : BitVec 1) (rd rb : RegNum) (off : BitVec 5) : field (encodeLdSt d rd rb off) 13 1 = d := by
  apply field_eq
  intro j hj
  rw [getLsbD_encodeLdSt]
  interval_cases j <;> rfl

theorem encodeLdSt_leadingOnes (d : BitVec 1) (rd rb : RegNum) (off : BitVec 5) : leadingOnes (encodeLdSt d rd rb off) 16 = 1 := by
  apply leadingOnes_eq (by omega)
  · intro j hj
    rw [getLsbD_encodeLdSt]
    interval_cases j <;> rfl
  · rw [getLsbD_encodeLdSt]
    rfl


/-! ## Alu2 -/

theorem getLsbD_encodeAlu2 (op : BitVec 3) (rd : RegNum) (wi : BitVec 2) (x : BitVec 4) (j : Nat) :
    (encodeAlu2 op rd wi x).getLsbD j =
      if j < 4 then x.getLsbD j else if j < 6 then wi.getLsbD (j - 4) else
      if j < 10 then rd.getLsbD (j - 6) else if j < 13 then op.getLsbD (j - 10) else (0b110#3).getLsbD (j - 13) := by
  change (0b110#3 ++ op ++ rd ++ wi ++ x : BitVec (3 + 3 + 4 + 2 + 4)).getLsbD j = _
  rw [getLsbD_pair, getLsbD_pair, getLsbD_pair, getLsbD_pair]
  simp only [Nat.sub_sub]
  split_ifs <;> first | rfl | omega

theorem encodeAlu2_x (op : BitVec 3) (rd : RegNum) (wi : BitVec 2) (x : BitVec 4) : field (encodeAlu2 op rd wi x) 0 4 = x := by
  apply field_eq
  intro j hj
  rw [getLsbD_encodeAlu2]
  interval_cases j <;> rfl

theorem encodeAlu2_wi (op : BitVec 3) (rd : RegNum) (wi : BitVec 2) (x : BitVec 4) : field (encodeAlu2 op rd wi x) 4 2 = wi := by
  apply field_eq
  intro j hj
  rw [getLsbD_encodeAlu2]
  interval_cases j <;> rfl

theorem encodeAlu2_rd (op : BitVec 3) (rd : RegNum) (wi : BitVec 2) (x : BitVec 4) : field (encodeAlu2 op rd wi x) 6 4 = rd := by
  apply field_eq
  intro j hj
  rw [getLsbD_encodeAlu2]
  interval_cases j <;> rfl

theorem encodeAlu2_op (op : BitVec 3) (rd : RegNum) (wi : BitVec 2) (x : BitVec 4) : field (encodeAlu2 op rd wi x) 10 3 = op := by
  apply field_eq
  intro j hj
  rw [getLsbD_encodeAlu2]
  interval_cases j <;> rfl

theorem encodeAlu2_leadingOnes (op : BitVec 3) (rd : RegNum) (wi : BitVec 2) (x : BitVec 4) : leadingOnes (encodeAlu2 op rd wi x) 16 = 2 := by
  apply leadingOnes_eq (by omega)
  · intro j hj
    rw [getLsbD_encodeAlu2]
    interval_cases j <;> rfl
  · rw [getLsbD_encodeAlu2]
    rfl


/-! ## Shift -/

theorem getLsbD_encodeShift (rd : RegNum) (type count : BitVec 3) (j : Nat) :
    (encodeShift rd type count).getLsbD j =
      if j < 3 then count.getLsbD j else if j < 6 then type.getLsbD (j - 3) else
      if j < 10 then rd.getLsbD (j - 6) else if j < 13 then (0b111#3).getLsbD (j - 10) else (0b110#3).getLsbD (j - 13) := by
  change (0b110#3 ++ 0b111#3 ++ rd ++ type ++ count : BitVec (3 + 3 + 4 + 3 + 3)).getLsbD j = _
  rw [getLsbD_pair, getLsbD_pair, getLsbD_pair, getLsbD_pair]
  simp only [Nat.sub_sub]
  split_ifs <;> first | rfl | omega

theorem encodeShift_count (rd : RegNum) (type count : BitVec 3) : field (encodeShift rd type count) 0 3 = count := by
  apply field_eq
  intro j hj
  rw [getLsbD_encodeShift]
  interval_cases j <;> rfl

theorem encodeShift_type (rd : RegNum) (type count : BitVec 3) : field (encodeShift rd type count) 3 3 = type := by
  apply field_eq
  intro j hj
  rw [getLsbD_encodeShift]
  interval_cases j <;> rfl

theorem encodeShift_rd (rd : RegNum) (type count : BitVec 3) : field (encodeShift rd type count) 6 4 = rd := by
  apply field_eq
  intro j hj
  rw [getLsbD_encodeShift]
  interval_cases j <;> rfl

theorem encodeShift_op3 (rd : RegNum) (type count : BitVec 3) : field (encodeShift rd type count) 10 3 = 0b111#3 := by
  apply field_eq
  intro j hj
  rw [getLsbD_encodeShift]
  interval_cases j <;> rfl

theorem encodeShift_leadingOnes (rd : RegNum) (type count : BitVec 3) : leadingOnes (encodeShift rd type count) 16 = 2 := by
  apply leadingOnes_eq (by omega)
  · intro j hj
    rw [getLsbD_encodeShift]
    interval_cases j <;> rfl
  · rw [getLsbD_encodeShift]
    rfl


/-! ## Jmp -/

theorem getLsbD_encodeJmp (type : BitVec 3) (target : BitVec 9) (j : Nat) :
    (encodeJmp type target).getLsbD j =
      if j < 9 then target.getLsbD j else if j < 12 then type.getLsbD (j - 9) else
      (0b1110#4).getLsbD (j - 12) := by
  change (0b1110#4 ++ type ++ target : BitVec (4 + 3 + 9)).getLsbD j = _
  rw [getLsbD_pair, getLsbD_pair]
  simp only [Nat.sub_sub]
  split_ifs <;> first | rfl | omega

theorem encodeJmp_target (type : BitVec 3) (target : BitVec 9) : field (encodeJmp type target) 0 9 = target := by
  apply field_eq
  intro j hj
  rw [getLsbD_encodeJmp]
  interval_cases j <;> rfl

theorem encodeJmp_type (type : BitVec 3) (target : BitVec 9) : field (encodeJmp type target) 9 3 = type := by
  apply field_eq
  intro j hj
  rw [getLsbD_encodeJmp]
  interval_cases j <;> rfl

theorem encodeJmp_leadingOnes (type : BitVec 3) (target : BitVec 9) : leadingOnes (encodeJmp type target) 16 = 3 := by
  apply leadingOnes_eq (by omega)
  · intro j hj
    rw [getLsbD_encodeJmp]
    interval_cases j <;> rfl
  · rw [getLsbD_encodeJmp]
    rfl


/-! ## LdsSts -/

theorem getLsbD_encodeLdsSts (d : BitVec 1) (seg : Seg) (rd rs : RegNum) (j : Nat) :
    (encodeLdsSts d seg rd rs).getLsbD j =
      if j < 4 then rs.getLsbD j else if j < 8 then rd.getLsbD (j - 4) else
      if j < 10 then seg.code.getLsbD (j - 8) else if j < 11 then d.getLsbD (j - 10) else (0b11110#5).getLsbD (j - 11) := by
  change (0b11110#5 ++ d ++ seg.code ++ rd ++ rs : BitVec (5 + 1 + 2 + 4 + 4)).getLsbD j = _
  rw [getLsbD_pair, getLsbD_pair, getLsbD_pair, getLsbD_pair]
  simp only [Nat.sub_sub]
  split_ifs <;> first | rfl | omega

theorem encodeLdsSts_rs (d : BitVec 1) (seg : Seg) (rd rs : RegNum) : field (encodeLdsSts d seg rd rs) 0 4 = rs := by
  apply field_eq
  intro j hj
  rw [getLsbD_encodeLdsSts]
  interval_cases j <;> rfl

theorem encodeLdsSts_rd (d : BitVec 1) (seg : Seg) (rd rs : RegNum) : field (encodeLdsSts d seg rd rs) 4 4 = rd := by
  apply field_eq
  intro j hj
  rw [getLsbD_encodeLdsSts]
  interval_cases j <;> rfl

theorem encodeLdsSts_seg (d : BitVec 1) (seg : Seg) (rd rs : RegNum) : field (encodeLdsSts d seg rd rs) 8 2 = seg.code := by
  apply field_eq
  intro j hj
  rw [getLsbD_encodeLdsSts]
  interval_cases j <;> rfl

theorem encodeLdsSts_d (d : BitVec 1) (seg : Seg) (rd rs : RegNum) : field (encodeLdsSts d seg rd rs) 10 1 = d := by
  apply field_eq
  intro j hj
  rw [getLsbD_encodeLdsSts]
  interval_cases j <;> rfl

theorem encodeLdsSts_leadingOnes (d : BitVec 1) (seg : Seg) (rd rs : RegNum) : leadingOnes (encodeLdsSts d seg rd rs) 16 = 4 := by
  apply leadingOnes_eq (by omega)
  · intro j hj
    rw [getLsbD_encodeLdsSts]
    interval_cases j <;> rfl
  · rw [getLsbD_encodeLdsSts]
    rfl


/-! ## Mov -/

theorem getLsbD_encodeMov (rd rs : RegNum) (imm : BitVec 2) (j : Nat) :
    (encodeMov rd rs imm).getLsbD j =
      if j < 2 then imm.getLsbD j else if j < 6 then rs.getLsbD (j - 2) else
      if j < 10 then rd.getLsbD (j - 6) else (0b111110#6).getLsbD (j - 10) := by
  change (0b111110#6 ++ rd ++ rs ++ imm : BitVec (6 + 4 + 4 + 2)).getLsbD j = _
  rw [getLsbD_pair, getLsbD_pair, getLsbD_pair]
  simp only [Nat.sub_sub]
  split_ifs <;> first | rfl | omega

theorem encodeMov_imm (rd rs : RegNum) (imm : BitVec 2) : field (encodeMov rd rs imm) 0 2 = imm := by
  apply field_eq
  intro j hj
  rw [getLsbD_encodeMov]
  interval_cases j <;> rfl

theorem encodeMov_rs (rd rs : RegNum) (imm : BitVec 2) : field (encodeMov rd rs imm) 2 4 = rs := by
  apply field_eq
  intro j hj
  rw [getLsbD_encodeMov]
  interval_cases j <;> rfl

theorem encodeMov_rd (rd rs : RegNum) (imm : BitVec 2) : field (encodeMov rd rs imm) 6 4 = rd := by
  apply field_eq
  intro j hj
  rw [getLsbD_encodeMov]
  interval_cases j <;> rfl

theorem encodeMov_leadingOnes (rd rs : RegNum) (imm : BitVec 2) : leadingOnes (encodeMov rd rs imm) 16 = 5 := by
  apply leadingOnes_eq (by omega)
  · intro j hj
    rw [getLsbD_encodeMov]
    interval_cases j <;> rfl
  · rw [getLsbD_encodeMov]
    rfl


/-! ## Sop -/

theorem getLsbD_encodeSop (type x : BitVec 4) (j : Nat) :
    (encodeSop type x).getLsbD j =
      if j < 4 then x.getLsbD j else if j < 8 then type.getLsbD (j - 4) else
      (0b11111110#8).getLsbD (j - 8) := by
  change (0b11111110#8 ++ type ++ x : BitVec (8 + 4 + 4)).getLsbD j = _
  rw [getLsbD_pair, getLsbD_pair]
  simp only [Nat.sub_sub]
  split_ifs <;> first | rfl | omega

theorem encodeSop_x (type x : BitVec 4) : field (encodeSop type x) 0 4 = x := by
  apply field_eq
  intro j hj
  rw [getLsbD_encodeSop]
  interval_cases j <;> rfl

theorem encodeSop_type (type x : BitVec 4) : field (encodeSop type x) 4 4 = type := by
  apply field_eq
  intro j hj
  rw [getLsbD_encodeSop]
  interval_cases j <;> rfl

theorem encodeSop_leadingOnes (type x : BitVec 4) : leadingOnes (encodeSop type x) 16 = 7 := by
  apply leadingOnes_eq (by omega)
  · intro j hj
    rw [getLsbD_encodeSop]
    interval_cases j <;> rfl
  · rw [getLsbD_encodeSop]
    rfl


/-! ## Mvs -/

theorem getLsbD_encodeMvs (d : BitVec 1) (rd : RegNum) (seg : Seg) (j : Nat) :
    (encodeMvs d rd seg).getLsbD j =
      if j < 2 then seg.code.getLsbD j else if j < 6 then rd.getLsbD (j - 2) else
      if j < 7 then d.getLsbD (j - 6) else (0b111111110#9).getLsbD (j - 7) := by
  change (0b111111110#9 ++ d ++ rd ++ seg.code : BitVec (9 + 1 + 4 + 2)).getLsbD j = _
  rw [getLsbD_pair, getLsbD_pair, getLsbD_pair]
  simp only [Nat.sub_sub]
  split_ifs <;> first | rfl | omega

theorem encodeMvs_seg (d : BitVec 1) (rd : RegNum) (seg : Seg) : field (encodeMvs d rd seg) 0 2 = seg.code := by
  apply field_eq
  intro j hj
  rw [getLsbD_encodeMvs]
  interval_cases j <;> rfl

theorem encodeMvs_rd (d : BitVec 1) (rd : RegNum) (seg : Seg) : field (encodeMvs d rd seg) 2 4 = rd := by
  apply field_eq
  intro j hj
  rw [getLsbD_encodeMvs]
  interval_cases j <;> rfl

theorem encodeMvs_d (d : BitVec 1) (rd : RegNum) (seg : Seg) : field (encodeMvs d rd seg) 6 1 = d := by
  apply field_eq
  intro j hj
  rw [getLsbD_encodeMvs]
  interval_cases j <;> rfl

theorem encodeMvs_leadingOnes (d : BitVec 1) (rd : RegNum) (seg : Seg) : leadingOnes (encodeMvs d rd seg) 16 = 8 := by
  apply leadingOnes_eq (by omega)
  · intro j hj
    rw [getLsbD_encodeMvs]
    interval_cases j <;> rfl
  · rw [getLsbD_encodeMvs]
    rfl


/-! ## Smv -/

theorem getLsbD_encodeSmv (src : BitVec 2) (rd : RegNum) (j : Nat) :
    (encodeSmv src rd).getLsbD j =
      if j < 4 then rd.getLsbD j else if j < 6 then src.getLsbD (j - 4) else
      (0b1111111110#10).getLsbD (j - 6) := by
  change (0b1111111110#10 ++ src ++ rd : BitVec (10 + 2 + 4)).getLsbD j = _
  rw [getLsbD_pair, getLsbD_pair]
  simp only [Nat.sub_sub]
  split_ifs <;> first | rfl | omega

theorem encodeSmv_rd (src : BitVec 2) (rd : RegNum) : field (encodeSmv src rd) 0 4 = rd := by
  apply field_eq
  intro j hj
  rw [getLsbD_encodeSmv]
  interval_cases j <;> rfl

theorem encodeSmv_src (src : BitVec 2) (rd : RegNum) : field (encodeSmv src rd) 4 2 = src := by
  apply field_eq
  intro j hj
  rw [getLsbD_encodeSmv]
  interval_cases j <;> rfl

theorem encodeSmv_leadingOnes (src : BitVec 2) (rd : RegNum) : leadingOnes (encodeSmv src rd) 16 = 9 := by
  apply leadingOnes_eq (by omega)
  · intro j hj
    rw [getLsbD_encodeSmv]
    interval_cases j <;> rfl
  · rw [getLsbD_encodeSmv]
    rfl


/-! ## Sys -/

theorem getLsbD_encodeSys (op : BitVec 3) (j : Nat) :
    (encodeSys op).getLsbD j =
      if j < 3 then op.getLsbD j else (0b1111111111110#13).getLsbD (j - 3) := by
  change (0b1111111111110#13 ++ op : BitVec (13 + 3)).getLsbD j = _
  rw [getLsbD_pair]

theorem encodeSys_op (op : BitVec 3) : field (encodeSys op) 0 3 = op := by
  apply field_eq
  intro j hj
  rw [getLsbD_encodeSys]
  interval_cases j <;> rfl

theorem encodeSys_leadingOnes (op : BitVec 3) : leadingOnes (encodeSys op) 16 = 12 := by
  apply leadingOnes_eq (by omega)
  · intro j hj
    rw [getLsbD_encodeSys]
    interval_cases j <;> rfl
  · rw [getLsbD_encodeSys]
    rfl


/-! ## Ldi -/

theorem getLsbD_encodeLdi (imm : BitVec 15) (j : Nat) :
    (encode (.ldi imm)).getLsbD j =
      if j < 15 then imm.getLsbD j else (0b0#1).getLsbD (j - 15) := by
  change (0b0#1 ++ imm : BitVec (1 + 15)).getLsbD j = _
  rw [getLsbD_pair]

theorem encodeLdi_imm (imm : BitVec 15) : field (encode (.ldi imm)) 0 15 = imm := by
  apply field_eq
  intro j hj
  rw [getLsbD_encodeLdi]
  interval_cases j <;> rfl

theorem encodeLdi_leadingOnes (imm : BitVec 15) : leadingOnes (encode (.ldi imm)) 16 = 0 := by
  apply leadingOnes_eq (by omega)
  · intro j hj
    omega
  · rw [getLsbD_encodeLdi]
    rfl


/-! ## Lsi -/

theorem getLsbD_encodeLsi (rd : RegNum) (imm : BitVec 5) (j : Nat) :
    (encode (.lsi rd imm)).getLsbD j =
      if j < 5 then imm.getLsbD j else if j < 9 then rd.getLsbD (j - 5) else
      (0b1111110#7).getLsbD (j - 9) := by
  change (0b1111110#7 ++ rd ++ imm : BitVec (7 + 4 + 5)).getLsbD j = _
  rw [getLsbD_pair, getLsbD_pair]
  simp only [Nat.sub_sub]
  split_ifs <;> first | rfl | omega

theorem encodeLsi_imm (rd : RegNum) (imm : BitVec 5) : field (encode (.lsi rd imm)) 0 5 = imm := by
  apply field_eq
  intro j hj
  rw [getLsbD_encodeLsi]
  interval_cases j <;> rfl

theorem encodeLsi_rd (rd : RegNum) (imm : BitVec 5) : field (encode (.lsi rd imm)) 5 4 = rd := by
  apply field_eq
  intro j hj
  rw [getLsbD_encodeLsi]
  interval_cases j <;> rfl

theorem encodeLsi_leadingOnes (rd : RegNum) (imm : BitVec 5) : leadingOnes (encode (.lsi rd imm)) 16 = 6 := by
  apply leadingOnes_eq (by omega)
  · intro j hj
    rw [getLsbD_encodeLsi]
    interval_cases j <;> rfl
  · rw [getLsbD_encodeLsi]
    rfl

end Sys2Proof
end

