-- ==== Sys2Proof/Laws/Frames.lean ====
section
/-! SUPPORT. The frames of the shared operations, in the terms of Safety.lean: what a register write, a flag write and
a pair write leave unchanged. -/

namespace Sys2Proof.Safety

open Sys2Proof.Machine

/-! ## Runs -/

/-- A run whose first step completes is the run from the state it leaves. -/
theorem core_run_succ (k : Nat) (s t : State) (h : step s = .next t) :
    Sys2Proof.core.run (k + 1) s = Sys2Proof.core.run k t := by
  have general : ∀ (M : Host.Core) (s t : M.State), M.step s = .next t → M.run (k + 1) s = M.run k t := by
    intro M s t h
    rw [Host.Core.run, h]
  exact general Sys2Proof.core s t h

/-! ## Frames compose -/

theorem CoreKept.refl (s : State) : CoreKept s s := ⟨rfl, rfl, rfl, rfl, rfl, rfl, rfl, rfl, rfl, rfl⟩

theorem CoreKept.trans {s m t : State} (h : CoreKept s m) (h' : CoreKept m t) : CoreKept s t :=
  ⟨h'.pc.trans h.pc, h'.cs.trans h.cs, h'.view.trans h.view, h'.inactive.trans h.inactive, h'.ds.trans h.ds,
    h'.ss.trans h.ss, h'.es.trans h.es, h'.halted.trans h.halted, h'.cfg.trans h.cfg, h'.env.trans h.env⟩

theorem NoStore.refl (s : State) : NoStore s s := ⟨fun _ => rfl, rfl, rfl⟩

theorem NoStore.trans {s m t : State} (h : NoStore s m) (h' : NoStore m t) : NoStore s t :=
  ⟨fun c => (h'.mem c).trans (h.mem c), h'.platformOut.trans h.platformOut, h'.stored.trans h.stored⟩

theorem NoInput.refl (s : State) : NoInput s s := ⟨rfl, rfl⟩

theorem NoInput.trans {s m t : State} (h : NoInput s m) (h' : NoInput m t) : NoInput s t :=
  ⟨h'.platformIn.trans h.platformIn, h'.draws.trans h.draws⟩

theorem Frame.refl (s : State) : Frame s s := ⟨.refl s, .refl s, .refl s⟩

theorem Frame.trans {s m t : State} (h : Frame s m) (h' : Frame m t) : Frame s t :=
  ⟨h.core.trans h'.core, h.store.trans h'.store, h.input.trans h'.input⟩

/-! ## The single updates -/

theorem frame_setPsw (s : State) (p : Word) : Frame s (s.setPsw p) where
  core := ⟨by simp, by simp, by simp, by simp, by simp, by simp, by simp, by simp, by simp, by simp⟩
  store := ⟨fun _ => rfl, rfl, rfl⟩
  input := ⟨rfl, rfl⟩

theorem frame_setReg (s : State) (r : RegNum) (v : Word) : Frame s (s.setReg r v) where
  core := ⟨rfl, rfl, rfl, rfl, rfl, rfl, rfl, rfl, rfl, rfl⟩
  store := ⟨fun _ => rfl, rfl, rfl⟩
  input := ⟨rfl, rfl⟩

theorem frame_setDly (s : State) (d : Option Transfer) : Frame s (s.setDly d) where
  core := ⟨rfl, rfl, rfl, rfl, rfl, rfl, rfl, rfl, rfl, rfl⟩
  store := ⟨fun _ => rfl, rfl, rfl⟩
  input := ⟨rfl, rfl⟩

theorem coreKept_setDraws (s : State) (n : Nat) : CoreKept s (s.setDraws n) :=
  ⟨rfl, rfl, rfl, rfl, rfl, rfl, rfl, rfl, rfl, rfl⟩

theorem noStore_setDraws (s : State) (n : Nat) : NoStore s (s.setDraws n) := ⟨fun _ => rfl, rfl, rfl⟩

theorem coreKept_setPlatformIn (s : State) (ws : List Word) : CoreKept s (s.setPlatformIn ws) :=
  ⟨rfl, rfl, rfl, rfl, rfl, rfl, rfl, rfl, rfl, rfl⟩

theorem noStore_setPlatformIn (s : State) (ws : List Word) : NoStore s (s.setPlatformIn ws) :=
  ⟨fun _ => rfl, rfl, rfl⟩

theorem noDest_setPsw (s : State) (p : Word) : NoDest s (s.setPsw p) :=
  ⟨⟨fun _ _ => by simp, rfl⟩, rfl⟩

/-- A data read keeps everything but the inputs. -/
theorem coreKept_loadWord (a : PhysAddr) (s : State) : CoreKept s (loadWord a s).2 := by
  rcases loadWord_state a s with h | h | ⟨ws, h⟩ <;> rw [h]
  · exact .refl s
  · exact coreKept_setDraws s _
  · exact coreKept_setPlatformIn s ws

/-! ## The register write -/

/-- A completed register write reads `Dest` from any earlier state that agrees on the registers. -/
theorem dest_writeReg (s m : State) (r : RegNum) (v : Word) (hr : ∀ r', r' ≠ 15 → m.reg r' = s.reg r')
    (hd : m.dly = s.dly) (hw : m.recent = s.recent) (h : r = 15 → s.dly = none) :
    ∃ t, writeReg r v m = .next t ∧ Dest r v s t ∧ t.psw = m.psw ∧ Frame m t := by
  by_cases h15 : r = 15
  · refine ⟨m.setDly (some ⟨none, v⟩), ?_, ?_, rfl, frame_setDly _ _⟩
    · rw [writeReg_eq_next]
      exact .inr ⟨h15, hd.trans (h h15), rfl⟩
    · rw [Dest, if_pos h15]
      exact ⟨rfl, hr, hw⟩
  · refine ⟨m.setReg r v, ?_, ?_, rfl, frame_setReg _ _ _⟩
    · rw [writeReg_eq_next]
      exact .inl ⟨h15, rfl⟩
    · rw [Dest, if_neg h15]
      exact ⟨State.setReg_reg_self _ _ h15, fun r' h1 h2 => (State.setReg_reg_of_ne m v h2).trans (hr r' h1), hd,
        by rw [State.setReg_recent _ _ h15, hr r h15, hw]⟩

/-- A register write with the flags written before it. -/
theorem writeReg_setPsw_completes (s : State) (p : Word) (r : RegNum) (v : Word) (h : r = 15 → s.dly = none) :
    ∃ t, writeReg r v (s.setPsw p) = .next t ∧ Dest r v s t ∧ t.psw = p ∧ Frame s t := by
  obtain ⟨t, h1, h2, h3, h4⟩ := dest_writeReg s (s.setPsw p) r v (by simp) rfl rfl h
  exact ⟨t, h1, h2, by simpa using h3, (frame_setPsw s p).trans h4⟩

/-- A register write alone. -/
theorem writeReg_completes (s : State) (r : RegNum) (v : Word) (h : r = 15 → s.dly = none) :
    Gives (writeReg r v s) s r v :=
  dest_writeReg s s r v (fun _ _ => rfl) rfl rfl h

/-- A register write with `p` as the new PSW, the flags of `p` as named. -/
theorem givesFlags_of (s : State) (p : Word) (r : RegNum) (value : Word) (n z v c : Bool)
    (h : r = 15 → s.dly = none) (hn : pswN p = n) (hz : pswZ p = z) (hv : pswV p = v) (hc : pswC p = c)
    (hp : ∀ i, 4 ≤ i → p.getLsbD i = s.psw.getLsbD i) :
    GivesFlags (writeReg r value (s.setPsw p)) s r value n z v c := by
  obtain ⟨t, h1, h2, h3, h4⟩ := writeReg_setPsw_completes s p r value h
  exact ⟨t, h1, h2, ⟨by rw [h3, hn], by rw [h3, hz], by rw [h3, hv], by rw [h3, hc], by rw [h3]; exact hp⟩, h4⟩

/-- Only the flags written. -/
theorem flagsOnly_of (s : State) (p : Word) (n z v c : Bool)
    (hn : pswN p = n) (hz : pswZ p = z) (hv : pswV p = v) (hc : pswC p = c)
    (hp : ∀ i, 4 ≤ i → p.getLsbD i = s.psw.getLsbD i) :
    FlagsOnly (.next (s.setPsw p)) s n z v c :=
  ⟨s.setPsw p, rfl, noDest_setPsw s p,
    ⟨by simpa using hn, by simpa using hz, by simpa using hv, by simpa using hc, by simpa using hp⟩,
    frame_setPsw s p⟩

/-- The pair write completes for an even first register (41_alu.md R165). -/
theorem writePair_completes (s m : State) (r : RegNum) (lo hi : Word) (he : isEven r = true)
    (hr : ∀ r', r' ≠ 15 → m.reg r' = s.reg r') (hd : m.dly = s.dly) (hw : m.recent = s.recent)
    (h : r + 1 = 15 → s.dly = none) :
    ∃ t, writePair r lo hi m = .next t ∧ DestPair r lo hi s t ∧ t.psw = m.psw ∧ Frame m t := by
  have h15 : r ≠ 15 := by rintro rfl; simp [isEven] at he
  have hn : writeReg r lo m = .next (m.setReg r lo) := writeReg_eq_next.2 (.inl ⟨h15, rfl⟩)
  obtain ⟨k, hk, hkd, -, -⟩ := dest_writeReg s m r lo hr hd hw (fun e => absurd e h15)
  obtain rfl : m.setReg r lo = k := by rw [hn] at hk; injection hk
  obtain ⟨t, h1, h2, h3, h4⟩ := dest_writeReg (m.setReg r lo) (m.setReg r lo) (r + 1) hi (fun _ _ => rfl) rfl rfl
    (fun e => hd.trans (h e))
  refine ⟨t, ?_, ⟨_, hkd, h2⟩, h3, (frame_setReg _ _ _).trans h4⟩
  unfold writePair
  rw [hn]
  exact h1

end Sys2Proof.Safety
end

