-- ==== Sys2Proof/Laws/PerInstr.lean ====
section
/-! SUPPORT. The family TableBits: the encoder puts the fixed bits of every instruction's row of
spec/opcode_table.json where the row has them. One lemma per constructor. -/

namespace Sys2Proof.Laws.TableBits

/-- The row's `mask`: which bits the opcode table fixes. -/
def mask : Instr → Word
  | .ldi _ => 0x8000#16
  | .ld _ _ _ => 0xE000#16
  | .st _ _ _ => 0xE000#16
  | .addR _ _ => 0xFC30#16
  | .addI _ _ => 0xFC30#16
  | .anwR _ _ => 0xFC30#16
  | .anwI _ _ => 0xFC30#16
  | .subR _ _ => 0xFC30#16
  | .subI _ _ => 0xFC30#16
  | .cmpR _ _ => 0xFC30#16
  | .cmpI _ _ => 0xFC30#16
  | .andR _ _ => 0xFC30#16
  | .andI _ _ => 0xFC30#16
  | .tstR _ _ => 0xFC30#16
  | .tstI _ _ => 0xFC30#16
  | .orR _ _ => 0xFC30#16
  | .orI _ _ => 0xFC30#16
  | .onwR _ _ => 0xFC30#16
  | .onwI _ _ => 0xFC30#16
  | .xorR _ _ => 0xFC30#16
  | .xorI _ _ => 0xFC30#16
  | .tbcR _ _ => 0xFC30#16
  | .tbcI _ _ => 0xFC30#16
  | .mul _ _ => 0xFC30#16
  | .mul32 _ _ => 0xFC30#16
  | .mnw _ _ => 0xFC30#16
  | .mnw32 _ _ => 0xFC30#16
  | .div _ _ => 0xFC30#16
  | .div32 _ _ => 0xFC30#16
  | .dnw _ _ => 0xFC30#16
  | .dnw32 _ _ => 0xFC30#16
  | .sl _ _ => 0xFC38#16
  | .slc _ _ => 0xFC38#16
  | .sr _ _ => 0xFC38#16
  | .src _ _ => 0xFC38#16
  | .sra _ _ => 0xFC38#16
  | .sac _ _ => 0xFC38#16
  | .ror _ _ => 0xFC38#16
  | .roc _ _ => 0xFC38#16
  | .jz _ => 0xFE00#16
  | .jnz _ => 0xFE00#16
  | .jc _ => 0xFE00#16
  | .jnc _ => 0xFE00#16
  | .jn _ => 0xFE00#16
  | .jnn _ => 0xFE00#16
  | .jo _ => 0xFE00#16
  | .jno _ => 0xFE00#16
  | .lds _ _ _ => 0xFC00#16
  | .sts _ _ _ => 0xFC00#16
  | .mov _ _ _ => 0xFC00#16
  | .amv _ _ => 0xFC03#16
  | .lsi _ _ => 0xFE00#16
  | .swb _ => 0xFFF0#16
  | .inv _ => 0xFFF0#16
  | .neg _ => 0xFFF0#16
  | .jml _ => 0xFFF0#16
  | .srs _ => 0xFFF0#16
  | .srd _ => 0xFFF0#16
  | .ers _ => 0xFFF0#16
  | .erd _ => 0xFFF0#16
  | .set _ => 0xFFF0#16
  | .clr _ => 0xFFF0#16
  | .set2 _ => 0xFFF0#16
  | .clr2 _ => 0xFFF0#16
  | .mvsFrom _ _ => 0xFFC0#16
  | .mvsTo _ _ => 0xFFC0#16
  | .smvApc _ => 0xFFF0#16
  | .smvApsw _ => 0xFFF0#16
  | .smvPsw _ => 0xFFF0#16
  | .smvAcs _ => 0xFFF0#16
  | .nop => 0xFFFF#16
  | .fsh => 0xFFFF#16
  | .swi => 0xFFFF#16
  | .reti => 0xFFFF#16
  | .hlt => 0xFFFF#16

/-- The row's `match`: the values of the bits it fixes. -/
def fixed : Instr → Word
  | .ldi _ => 0x0000#16
  | .ld _ _ _ => 0x8000#16
  | .st _ _ _ => 0xA000#16
  | .addR _ _ => 0xC020#16
  | .addI _ _ => 0xC030#16
  | .anwR _ _ => 0xC000#16
  | .anwI _ _ => 0xC010#16
  | .subR _ _ => 0xC420#16
  | .subI _ _ => 0xC430#16
  | .cmpR _ _ => 0xC400#16
  | .cmpI _ _ => 0xC410#16
  | .andR _ _ => 0xC820#16
  | .andI _ _ => 0xC830#16
  | .tstR _ _ => 0xC800#16
  | .tstI _ _ => 0xC810#16
  | .orR _ _ => 0xCC20#16
  | .orI _ _ => 0xCC30#16
  | .onwR _ _ => 0xCC00#16
  | .onwI _ _ => 0xCC10#16
  | .xorR _ _ => 0xD020#16
  | .xorI _ _ => 0xD030#16
  | .tbcR _ _ => 0xD000#16
  | .tbcI _ _ => 0xD010#16
  | .mul _ _ => 0xD420#16
  | .mul32 _ _ => 0xD430#16
  | .mnw _ _ => 0xD400#16
  | .mnw32 _ _ => 0xD410#16
  | .div _ _ => 0xD820#16
  | .div32 _ _ => 0xD830#16
  | .dnw _ _ => 0xD800#16
  | .dnw32 _ _ => 0xD810#16
  | .sl _ _ => 0xDC00#16
  | .slc _ _ => 0xDC08#16
  | .sr _ _ => 0xDC10#16
  | .src _ _ => 0xDC18#16
  | .sra _ _ => 0xDC20#16
  | .sac _ _ => 0xDC28#16
  | .ror _ _ => 0xDC30#16
  | .roc _ _ => 0xDC38#16
  | .jz _ => 0xE000#16
  | .jnz _ => 0xE200#16
  | .jc _ => 0xE400#16
  | .jnc _ => 0xE600#16
  | .jn _ => 0xE800#16
  | .jnn _ => 0xEA00#16
  | .jo _ => 0xEC00#16
  | .jno _ => 0xEE00#16
  | .lds _ _ _ => 0xF000#16
  | .sts _ _ _ => 0xF400#16
  | .mov _ _ _ => 0xF800#16
  | .amv _ _ => 0xF803#16
  | .lsi _ _ => 0xFC00#16
  | .swb _ => 0xFE00#16
  | .inv _ => 0xFE10#16
  | .neg _ => 0xFE20#16
  | .jml _ => 0xFE40#16
  | .srs _ => 0xFE80#16
  | .srd _ => 0xFE90#16
  | .ers _ => 0xFEA0#16
  | .erd _ => 0xFEB0#16
  | .set _ => 0xFEC0#16
  | .clr _ => 0xFED0#16
  | .set2 _ => 0xFEE0#16
  | .clr2 _ => 0xFEF0#16
  | .mvsFrom _ _ => 0xFF00#16
  | .mvsTo _ _ => 0xFF40#16
  | .smvApc _ => 0xFF80#16
  | .smvApsw _ => 0xFF90#16
  | .smvPsw _ => 0xFFA0#16
  | .smvAcs _ => 0xFFB0#16
  | .nop => 0xFFF0#16
  | .fsh => 0xFFF1#16
  | .swi => 0xFFF2#16
  | .reti => 0xFFF3#16
  | .hlt => 0xFFFF#16

/-- The encoded word has the row's fixed bits. -/
def Statement (i : Instr) : Prop := encode i &&& mask i = fixed i

/-! ## The formats under their masks -/

theorem encodeLdi_and (imm : BitVec 15) : encode (.ldi imm) &&& 0x8000#16 = 0x0000#16 := by
  apply BitVec.eq_of_getLsbD_eq
  intro j hj
  rw [BitVec.getLsbD_and, getLsbD_encodeLdi]
  interval_cases j <;> simp

theorem encodeLdSt_and (d : BitVec 1) (rd rb : RegNum) (off : BitVec 5) : encodeLdSt d rd rb off &&& 0xE000#16 = encodeLdSt d 0 0 0 := by
  apply BitVec.eq_of_getLsbD_eq
  intro j hj
  rw [BitVec.getLsbD_and, getLsbD_encodeLdSt, getLsbD_encodeLdSt]
  interval_cases j <;> simp

theorem encodeAlu2_and (op : BitVec 3) (rd : RegNum) (wi : BitVec 2) (x : BitVec 4) : encodeAlu2 op rd wi x &&& 0xFC30#16 = encodeAlu2 op 0 wi 0 := by
  apply BitVec.eq_of_getLsbD_eq
  intro j hj
  rw [BitVec.getLsbD_and, getLsbD_encodeAlu2, getLsbD_encodeAlu2]
  interval_cases j <;> simp

theorem encodeShift_and (rd : RegNum) (type count : BitVec 3) : encodeShift rd type count &&& 0xFC38#16 = encodeShift 0 type 0 := by
  apply BitVec.eq_of_getLsbD_eq
  intro j hj
  rw [BitVec.getLsbD_and, getLsbD_encodeShift, getLsbD_encodeShift]
  interval_cases j <;> simp

theorem encodeJmp_and (type : BitVec 3) (target : BitVec 9) : encodeJmp type target &&& 0xFE00#16 = encodeJmp type 0 := by
  apply BitVec.eq_of_getLsbD_eq
  intro j hj
  rw [BitVec.getLsbD_and, getLsbD_encodeJmp, getLsbD_encodeJmp]
  interval_cases j <;> simp

theorem encodeLdsSts_and (d : BitVec 1) (seg : Seg) (rd rs : RegNum) : encodeLdsSts d seg rd rs &&& 0xFC00#16 = encodeLdsSts d .cs 0 0 := by
  apply BitVec.eq_of_getLsbD_eq
  intro j hj
  rw [BitVec.getLsbD_and, getLsbD_encodeLdsSts, getLsbD_encodeLdsSts]
  interval_cases j <;> simp [Seg.code]

theorem encodeMov_and (rd rs : RegNum) (imm : BitVec 2) : encodeMov rd rs imm &&& 0xFC00#16 = encodeMov 0 0 0 := by
  apply BitVec.eq_of_getLsbD_eq
  intro j hj
  rw [BitVec.getLsbD_and, getLsbD_encodeMov, getLsbD_encodeMov]
  interval_cases j <;> simp

theorem encodeSop_and (type x : BitVec 4) : encodeSop type x &&& 0xFFF0#16 = encodeSop type 0 := by
  apply BitVec.eq_of_getLsbD_eq
  intro j hj
  rw [BitVec.getLsbD_and, getLsbD_encodeSop, getLsbD_encodeSop]
  interval_cases j <;> simp

theorem encodeMvs_and (d : BitVec 1) (rd : RegNum) (seg : Seg) : encodeMvs d rd seg &&& 0xFFC0#16 = encodeMvs d 0 .cs := by
  apply BitVec.eq_of_getLsbD_eq
  intro j hj
  rw [BitVec.getLsbD_and, getLsbD_encodeMvs, getLsbD_encodeMvs]
  interval_cases j <;> simp [Seg.code]

theorem encodeSmv_and (src : BitVec 2) (rd : RegNum) : encodeSmv src rd &&& 0xFFF0#16 = encodeSmv src 0 := by
  apply BitVec.eq_of_getLsbD_eq
  intro j hj
  rw [BitVec.getLsbD_and, getLsbD_encodeSmv, getLsbD_encodeSmv]
  interval_cases j <;> simp

theorem encodeAmv_and (rd rs : RegNum) : encodeMov rd rs 0b11#2 &&& 0xFC03#16 = encodeMov 0 0 0b11#2 := by
  apply BitVec.eq_of_getLsbD_eq
  intro j hj
  rw [BitVec.getLsbD_and, getLsbD_encodeMov, getLsbD_encodeMov]
  interval_cases j <;> simp

theorem encodeLsi_and (rd : RegNum) (imm : BitVec 5) : encode (.lsi rd imm) &&& 0xFE00#16 = encode (.lsi 0 0) := by
  apply BitVec.eq_of_getLsbD_eq
  intro j hj
  rw [BitVec.getLsbD_and, getLsbD_encodeLsi, getLsbD_encodeLsi]
  interval_cases j <;> simp

/-! ## One lemma per constructor -/

theorem ldi (imm : BitVec 15) : Statement (.ldi imm) := encodeLdi_and imm

theorem ld (rd rb : RegNum) (off : BitVec 5) : Statement (.ld rd rb off) := (encodeLdSt_and 0#1 rd rb off).trans rfl

theorem st (rd rb : RegNum) (off : BitVec 5) : Statement (.st rd rb off) := (encodeLdSt_and 1#1 rd rb off).trans rfl

theorem addR (rd rs : RegNum) : Statement (.addR rd rs) := (encodeAlu2_and 0b000#3 rd 0b10#2 rs).trans rfl

theorem addI (rd : RegNum) (imm : BitVec 4) : Statement (.addI rd imm) := (encodeAlu2_and 0b000#3 rd 0b11#2 imm).trans rfl

theorem anwR (rd rs : RegNum) : Statement (.anwR rd rs) := (encodeAlu2_and 0b000#3 rd 0b00#2 rs).trans rfl

theorem anwI (rd : RegNum) (imm : BitVec 4) : Statement (.anwI rd imm) := (encodeAlu2_and 0b000#3 rd 0b01#2 imm).trans rfl

theorem subR (rd rs : RegNum) : Statement (.subR rd rs) := (encodeAlu2_and 0b001#3 rd 0b10#2 rs).trans rfl

theorem subI (rd : RegNum) (imm : BitVec 4) : Statement (.subI rd imm) := (encodeAlu2_and 0b001#3 rd 0b11#2 imm).trans rfl

theorem cmpR (rd rs : RegNum) : Statement (.cmpR rd rs) := (encodeAlu2_and 0b001#3 rd 0b00#2 rs).trans rfl

theorem cmpI (rd : RegNum) (imm : BitVec 4) : Statement (.cmpI rd imm) := (encodeAlu2_and 0b001#3 rd 0b01#2 imm).trans rfl

theorem andR (rd rs : RegNum) : Statement (.andR rd rs) := (encodeAlu2_and 0b010#3 rd 0b10#2 rs).trans rfl

theorem andI (rd : RegNum) (imm : BitVec 4) : Statement (.andI rd imm) := (encodeAlu2_and 0b010#3 rd 0b11#2 imm).trans rfl

theorem tstR (rd rs : RegNum) : Statement (.tstR rd rs) := (encodeAlu2_and 0b010#3 rd 0b00#2 rs).trans rfl

theorem tstI (rd : RegNum) (imm : BitVec 4) : Statement (.tstI rd imm) := (encodeAlu2_and 0b010#3 rd 0b01#2 imm).trans rfl

theorem orR (rd rs : RegNum) : Statement (.orR rd rs) := (encodeAlu2_and 0b011#3 rd 0b10#2 rs).trans rfl

theorem orI (rd : RegNum) (imm : BitVec 4) : Statement (.orI rd imm) := (encodeAlu2_and 0b011#3 rd 0b11#2 imm).trans rfl

theorem onwR (rd rs : RegNum) : Statement (.onwR rd rs) := (encodeAlu2_and 0b011#3 rd 0b00#2 rs).trans rfl

theorem onwI (rd : RegNum) (imm : BitVec 4) : Statement (.onwI rd imm) := (encodeAlu2_and 0b011#3 rd 0b01#2 imm).trans rfl

theorem xorR (rd rs : RegNum) : Statement (.xorR rd rs) := (encodeAlu2_and 0b100#3 rd 0b10#2 rs).trans rfl

theorem xorI (rd : RegNum) (imm : BitVec 4) : Statement (.xorI rd imm) := (encodeAlu2_and 0b100#3 rd 0b11#2 imm).trans rfl

theorem tbcR (rd rs : RegNum) : Statement (.tbcR rd rs) := (encodeAlu2_and 0b100#3 rd 0b00#2 rs).trans rfl

theorem tbcI (rd : RegNum) (imm : BitVec 4) : Statement (.tbcI rd imm) := (encodeAlu2_and 0b100#3 rd 0b01#2 imm).trans rfl

theorem mul (rd rs : RegNum) : Statement (.mul rd rs) := (encodeAlu2_and 0b101#3 rd 0b10#2 rs).trans rfl

theorem mul32 (rd rs : RegNum) : Statement (.mul32 rd rs) := (encodeAlu2_and 0b101#3 rd 0b11#2 rs).trans rfl

theorem mnw (rd rs : RegNum) : Statement (.mnw rd rs) := (encodeAlu2_and 0b101#3 rd 0b00#2 rs).trans rfl

theorem mnw32 (rd rs : RegNum) : Statement (.mnw32 rd rs) := (encodeAlu2_and 0b101#3 rd 0b01#2 rs).trans rfl

theorem div (rd rs : RegNum) : Statement (.div rd rs) := (encodeAlu2_and 0b110#3 rd 0b10#2 rs).trans rfl

theorem div32 (rd rs : RegNum) : Statement (.div32 rd rs) := (encodeAlu2_and 0b110#3 rd 0b11#2 rs).trans rfl

theorem dnw (rd rs : RegNum) : Statement (.dnw rd rs) := (encodeAlu2_and 0b110#3 rd 0b00#2 rs).trans rfl

theorem dnw32 (rd rs : RegNum) : Statement (.dnw32 rd rs) := (encodeAlu2_and 0b110#3 rd 0b01#2 rs).trans rfl

theorem sl (rd : RegNum) (count : BitVec 3) : Statement (.sl rd count) := (encodeShift_and rd 0b000#3 count).trans rfl

theorem slc (rd : RegNum) (count : BitVec 3) : Statement (.slc rd count) := (encodeShift_and rd 0b001#3 count).trans rfl

theorem sr (rd : RegNum) (count : BitVec 3) : Statement (.sr rd count) := (encodeShift_and rd 0b010#3 count).trans rfl

theorem src (rd : RegNum) (count : BitVec 3) : Statement (.src rd count) := (encodeShift_and rd 0b011#3 count).trans rfl

theorem sra (rd : RegNum) (count : BitVec 3) : Statement (.sra rd count) := (encodeShift_and rd 0b100#3 count).trans rfl

theorem sac (rd : RegNum) (count : BitVec 3) : Statement (.sac rd count) := (encodeShift_and rd 0b101#3 count).trans rfl

theorem ror (rd : RegNum) (count : BitVec 3) : Statement (.ror rd count) := (encodeShift_and rd 0b110#3 count).trans rfl

theorem roc (rd : RegNum) (count : BitVec 3) : Statement (.roc rd count) := (encodeShift_and rd 0b111#3 count).trans rfl

theorem jz (target : BitVec 9) : Statement (.jz target) := (encodeJmp_and 0b000#3 target).trans rfl

theorem jnz (target : BitVec 9) : Statement (.jnz target) := (encodeJmp_and 0b001#3 target).trans rfl

theorem jc (target : BitVec 9) : Statement (.jc target) := (encodeJmp_and 0b010#3 target).trans rfl

theorem jnc (target : BitVec 9) : Statement (.jnc target) := (encodeJmp_and 0b011#3 target).trans rfl

theorem jn (target : BitVec 9) : Statement (.jn target) := (encodeJmp_and 0b100#3 target).trans rfl

theorem jnn (target : BitVec 9) : Statement (.jnn target) := (encodeJmp_and 0b101#3 target).trans rfl

theorem jo (target : BitVec 9) : Statement (.jo target) := (encodeJmp_and 0b110#3 target).trans rfl

theorem jno (target : BitVec 9) : Statement (.jno target) := (encodeJmp_and 0b111#3 target).trans rfl

theorem lds (rd : RegNum) (seg : Seg) (rs : RegNum) : Statement (.lds rd seg rs) := (encodeLdsSts_and 0#1 seg rd rs).trans rfl

theorem sts (rd : RegNum) (seg : Seg) (rs : RegNum) : Statement (.sts rd seg rs) := (encodeLdsSts_and 1#1 seg rd rs).trans rfl

theorem mov (rd rs : RegNum) (imm : BitVec 2) : Statement (.mov rd rs imm) := (encodeMov_and rd rs imm).trans rfl

theorem amv (rd rs : RegNum) : Statement (.amv rd rs) := (encodeAmv_and rd rs).trans rfl

theorem lsi (rd : RegNum) (imm : BitVec 5) : Statement (.lsi rd imm) := (encodeLsi_and rd imm).trans rfl

theorem swb (rx : RegNum) : Statement (.swb rx) := (encodeSop_and 0b0000#4 rx).trans rfl

theorem inv (rx : RegNum) : Statement (.inv rx) := (encodeSop_and 0b0001#4 rx).trans rfl

theorem neg (rx : RegNum) : Statement (.neg rx) := (encodeSop_and 0b0010#4 rx).trans rfl

theorem jml (rx : RegNum) : Statement (.jml rx) := (encodeSop_and 0b0100#4 rx).trans rfl

theorem srs (rx : RegNum) : Statement (.srs rx) := (encodeSop_and 0b1000#4 rx).trans rfl

theorem srd (rx : RegNum) : Statement (.srd rx) := (encodeSop_and 0b1001#4 rx).trans rfl

theorem ers (rx : RegNum) : Statement (.ers rx) := (encodeSop_and 0b1010#4 rx).trans rfl

theorem erd (rx : RegNum) : Statement (.erd rx) := (encodeSop_and 0b1011#4 rx).trans rfl

theorem set (imm : BitVec 4) : Statement (.set imm) := (encodeSop_and 0b1100#4 imm).trans rfl

theorem clr (imm : BitVec 4) : Statement (.clr imm) := (encodeSop_and 0b1101#4 imm).trans rfl

theorem set2 (imm : BitVec 4) : Statement (.set2 imm) := (encodeSop_and 0b1110#4 imm).trans rfl

theorem clr2 (imm : BitVec 4) : Statement (.clr2 imm) := (encodeSop_and 0b1111#4 imm).trans rfl

theorem mvsFrom (rd : RegNum) (seg : Seg) : Statement (.mvsFrom rd seg) := (encodeMvs_and 0#1 rd seg).trans rfl

theorem mvsTo (seg : Seg) (rd : RegNum) : Statement (.mvsTo seg rd) := (encodeMvs_and 1#1 rd seg).trans rfl

theorem smvApc (rd : RegNum) : Statement (.smvApc rd) := (encodeSmv_and 0b00#2 rd).trans rfl

theorem smvApsw (rd : RegNum) : Statement (.smvApsw rd) := (encodeSmv_and 0b01#2 rd).trans rfl

theorem smvPsw (rd : RegNum) : Statement (.smvPsw rd) := (encodeSmv_and 0b10#2 rd).trans rfl

theorem smvAcs (rd : RegNum) : Statement (.smvAcs rd) := (encodeSmv_and 0b11#2 rd).trans rfl

theorem nop : Statement (.nop) := rfl

theorem fsh : Statement (.fsh) := rfl

theorem swi : Statement (.swi) := rfl

theorem reti : Statement (.reti) := rfl

theorem hlt : Statement (.hlt) := rfl

end Sys2Proof.Laws.TableBits
end

