-- ==== Sys2Proof/Laws/Step.lean ====
section
/-! SUPPORT. What a step can do, said once: the four ways a boundary ends, what a fetch leaves, what an instruction
leaves. -/

namespace Sys2Proof.Safety

open Sys2Proof.Machine

/-! ## The address regions -/

theorem isPlatform_iff (a : PhysAddr) : isPlatform a = true ↔ IsPlatform a := by
  unfold isPlatform IsPlatform bootRomBase
  rw [Bool.and_eq_true, decide_eq_true_eq, decide_eq_true_eq]

theorem isBootRom_iff (a : PhysAddr) : isBootRom a = true ↔ IsRom a := by
  rw [isBootRom, decide_eq_true_iff]
  exact Iff.rfl

/-! ## Chains of updates -/

/-- What no update of an instruction but SWI and RETI touches (10_state.md R26, R31). -/
theorem updates_core {s t : State} (h : Updates s t) :
    t.pc = s.pc ∧ t.cs = s.cs ∧ t.view = s.view ∧ t.inactive = s.inactive ∧ t.cfg = s.cfg ∧ t.env = s.env := by
  refine ⟨?_, ?_, ?_, ?_, ?_, ?_⟩
  · exact h.same (f := State.pc) (by intro s t h; cases h <;> simp)
  · exact h.same (f := State.cs) (by intro s t h; cases h <;> simp)
  · exact h.same (f := State.view) (by intro s t h; cases h <;> simp)
  · exact h.same (f := State.inactive) (by intro s t h; cases h <;> simp)
  · exact h.same (f := State.cfg) (by intro s t h; cases h <;> simp)
  · exact h.same (f := State.env) (by intro s t h; cases h <;> simp)

/-- An instruction that completes is a chain of updates, an interrupt entry, or a return. -/
theorem exec_cases {i : Instr} {s t : State} (h : exec i s = .next t) :
    Updates s t ∨ (i = .swi ∧ s.dly = none ∧ t = interruptEntry .swi s) ∨
      (i = .reti ∧ s.dly = none ∧ t = interruptReturn s) := by
  by_cases h1 : i = .swi
  · subst h1; exact .inr (.inl ⟨rfl, execSwi_eq_next.1 h⟩)
  · by_cases h2 : i = .reti
    · subst h2; exact .inr (.inr ⟨rfl, execReti_eq_next.1 h⟩)
    · exact .inl (exec_updates h h1 h2)

/-! ## The fetch -/

/-- A fetch is at most one input taken (20_memory.md R71, R78). -/
theorem fetchNext_updates {s : State} {w : Option Word} {u : State} (h : fetchNext s = (w, u)) :
    (ageWindows s).setDraws u.draws = u ∨ (ageWindows s).setPlatformIn u.platformIn = u := by
  unfold fetchNext fetchWord at h
  split at h
  · rcases platformRead_state (ageWindows s) with ⟨x, ws, -, e⟩ | ⟨-, e⟩
    · rw [e] at h; injection h with _ h; rw [← h]; exact .inr rfl
    · rw [e] at h; injection h with _ h; rw [← h]; exact .inl rfl
  · have := congrArg Prod.snd h
    simp only at this
    rw [chooseOld_state] at this
    rw [← this]; exact .inl rfl

theorem fetch_updates {s : State} {w : Option Word} {u : State} (h : fetchNext s = (w, u)) :
    Updates (ageWindows s) u := by
  rcases fetchNext_updates h with e | e <;> rw [← e]
  · exact updates_one (.setDraws _ _)
  · exact updates_one (.setPlatformIn _ _)

/-- The state an instruction executes in: the PC at X + 1, one boundary input sampled (10_state.md R24, R26). -/
theorem fetch_advance {s : State} {w : Option Word} {u : State} (h : fetchNext s.nextBoundary = (w, u)) :
    (advancePc u).pc = s.pc + 1 ∧ (advancePc u).cs = s.cs ∧ (advancePc u).view = s.view ∧
      (advancePc u).inactive = s.inactive ∧ (advancePc u).cfg = s.cfg ∧ (advancePc u).env = s.env.tail ∧
      (advancePc u).psw = s.psw ∧ (advancePc u).dly = s.dly := by
  simp only [advancePc, State.setPc_pc, State.setPc_cs, State.setPc_view, State.setPc_inactive, State.setPc_cfg,
    State.setPc_env, State.setPc_psw, State.setPc_dly]
  rcases fetchNext_updates h with e | e <;> rw [← e] <;> exact ⟨rfl, rfl, rfl, rfl, rfl, rfl, rfl, rfl⟩

/-! ## The step, taken apart -/

/-- The four ways a boundary ends in a next state: reset, a halted processor, a hardware interrupt, an instruction
with the transfer its delay slot completes (60_exceptions.md R324, R325, 10_state.md R26). -/
theorem step_cases {s t : State} (h : step s = .next t) :
    (s.boundary.reset = true ∧ t = resetEvent s.nextBoundary) ∨
    (s.boundary.reset = false ∧ s.halted = true ∧ t = s.nextBoundary) ∨
    (s.boundary.reset = false ∧ s.halted = false ∧ s.dly = none ∧ t = interruptEntry .hardware s.nextBoundary) ∨
    (s.boundary.reset = false ∧ s.halted = false ∧ ∃ w i u m, fetchNext s.nextBoundary = (some w, u) ∧
      decode w = .ok i ∧ exec i (advancePc u) = .next m ∧
      ((s.dly = none ∧ t = m) ∨ ∃ d, s.dly = some d ∧ t = completeTransfer d m)) := by
  unfold step boundaryStep at h
  split at h
  · left; rename_i h'; exact ⟨h', by injection h with h; exact h.symm⟩
  · rename_i hr
    rw [Bool.not_eq_true] at hr
    split at h
    · right; left; rename_i h'; exact ⟨hr, h', by injection h with h; exact h.symm⟩
    · rename_i hh
      rw [Bool.not_eq_true] at hh
      split at h
      · rename_i ha
        right; right; left
        refine ⟨hr, hh, ?_, by injection h with h; exact h.symm⟩
        unfold acceptsInterrupt at ha
        cases hd : s.dly <;> simp_all
      · right; right; right
        refine ⟨hr, hh, ?_⟩
        unfold runInstruction at h
        split at h
        · cases h
        · rename_i w u hf
          split at h
          · cases h
          · rename_i i hi
            have hd : s.nextBoundary.dly = s.dly := rfl
            rw [hd] at h
            unfold finishSlot at h
            split at h
            · rename_i m hm
              refine ⟨w, i, u, m, hf, hi, hm, ?_⟩
              split at h
              · rename_i hd; left; exact ⟨hd, by injection h with h; exact h.symm⟩
              · rename_i d hd; right; exact ⟨d, hd, by injection h with h; exact h.symm⟩
            · cases h
            · cases h

end Sys2Proof.Safety
end

