-- ==== Sys2Proof/Tests/Slice0.lean ====
section
/-! SUPPORT. Tests with expected results from the spec: words from the patterns of 30_encoding.md, one-step vectors
from 95_test_vectors.md (the section is named before each group), and one witness for every obligation that has
hypotheses. -/

namespace Sys2Proof.Tests

open Sys2Proof.Machine Sys2Proof.Safety

/-! ## Well-formedness (30_encoding.md R98) -/

theorem test_wellFormed_refuses_mov_three : (Instr.mov 1 2 3).wellFormed = false := by decide

theorem test_wellFormed_takes_mov_two : (Instr.mov 1 2 2).wellFormed = true := by decide

/-! ## Decoding: every constructor, by a word written from its pattern -/

/-- R92, R107: words written from the patterns. -/
theorem test_decode_ldi :
    decode 0b0_010101010111100 = .ok (.ldi 0x2abc) := by decide

/-- R93, R107: words written from the patterns. -/
theorem test_decode_ldSt :
    decode 0b100_1110_0011_01010 = .ok (.ld 14 3 0xa) ∧
    decode 0b101_1001_1111_10101 = .ok (.st 9 15 0x15) := by decide

/-- R94, R107: words written from the patterns. -/
theorem test_decode_alu2 :
    decode 0b110000_0110_10_1011 = .ok (.addR 6 11) ∧
    decode 0b110000_0011_11_0011 = .ok (.addI 3 3) ∧
    decode 0b110000_1100_00_1000 = .ok (.anwR 12 8) ∧
    decode 0b110000_0101_01_0110 = .ok (.anwI 5 6) ∧
    decode 0b110001_1010_10_1101 = .ok (.subR 10 13) ∧
    decode 0b110001_0001_11_1100 = .ok (.subI 1 12) ∧
    decode 0b110001_1110_00_1011 = .ok (.cmpR 14 11) ∧
    decode 0b110001_1001_01_1001 = .ok (.cmpI 9 9) ∧
    decode 0b110010_0110_10_1000 = .ok (.andR 6 8) ∧
    decode 0b110010_0011_11_1111 = .ok (.andI 3 15) ∧
    decode 0b110010_1100_00_1101 = .ok (.tstR 12 13) ∧
    decode 0b110010_0101_01_0011 = .ok (.tstI 5 3) ∧
    decode 0b110011_1010_10_1011 = .ok (.orR 10 11) ∧
    decode 0b110011_0001_11_0110 = .ok (.orI 1 6) ∧
    decode 0b110011_1110_00_1000 = .ok (.onwR 14 8) ∧
    decode 0b110011_1001_01_1100 = .ok (.onwI 9 12) ∧
    decode 0b110100_0110_10_1101 = .ok (.xorR 6 13) ∧
    decode 0b110100_0011_11_1001 = .ok (.xorI 3 9) ∧
    decode 0b110100_1100_00_1011 = .ok (.tbcR 12 11) ∧
    decode 0b110100_0101_01_1111 = .ok (.tbcI 5 15) ∧
    decode 0b110101_1010_10_1000 = .ok (.mul 10 8) ∧
    decode 0b110101_0001_11_0010 = .ok (.mul32 1 2) ∧
    decode 0b110101_1110_00_1101 = .ok (.mnw 14 13) ∧
    decode 0b110101_1001_01_0111 = .ok (.mnw32 9 7) ∧
    decode 0b110110_0110_10_1011 = .ok (.div 6 11) ∧
    decode 0b110110_0011_11_0100 = .ok (.div32 3 4) ∧
    decode 0b110110_1100_00_1000 = .ok (.dnw 12 8) ∧
    decode 0b110110_0101_01_0010 = .ok (.dnw32 5 2) := by decide

/-- R95, R107: words written from the patterns. -/
theorem test_decode_shift :
    decode 0b110111_1010_000_001 = .ok (.sl 10 1) ∧
    decode 0b110111_0001_001_111 = .ok (.slc 1 7) ∧
    decode 0b110111_1110_010_010 = .ok (.sr 14 2) ∧
    decode 0b110111_1001_011_100 = .ok (.src 9 4) ∧
    decode 0b110111_0110_100_101 = .ok (.sra 6 5) ∧
    decode 0b110111_0011_101_110 = .ok (.sac 3 6) ∧
    decode 0b110111_1100_110_011 = .ok (.ror 12 3) ∧
    decode 0b110111_0101_111_001 = .ok (.roc 5 1) := by decide

/-- R96, R107: words written from the patterns. -/
theorem test_decode_jmp :
    decode 0b1110000_011111111 = .ok (.jz 0xff) ∧
    decode 0b1110001_111111101 = .ok (.jnz 0x1fd) ∧
    decode 0b1110010_000000101 = .ok (.jc 5) ∧
    decode 0b1110011_100000000 = .ok (.jnc 0x100) ∧
    decode 0b1110100_011111111 = .ok (.jn 0xff) ∧
    decode 0b1110101_111111101 = .ok (.jnn 0x1fd) ∧
    decode 0b1110110_000000101 = .ok (.jo 5) ∧
    decode 0b1110111_100000000 = .ok (.jno 0x100) := by decide

/-- R97, R107: words written from the patterns. -/
theorem test_decode_ldsSts :
    decode 0b111100_00_1010_1000 = .ok (.lds 10 .cs 8) ∧
    decode 0b111101_10_0001_0010 = .ok (.sts 1 .ss 2) := by decide

/-- R98, R107: words written from the patterns. -/
theorem test_decode_mov :
    decode 0b111110_1110_1101_10 = .ok (.mov 14 13 2) ∧
    decode 0b111110_1001_0111_11 = .ok (.amv 9 7) := by decide

/-- R99, R107: words written from the patterns. -/
theorem test_decode_lsi :
    decode 0b1111110_0110_11100 = .ok (.lsi 6 0x1c) := by decide

/-- R100, R107: words written from the patterns. -/
theorem test_decode_sop :
    decode 0b111111100000_0110 = .ok (.swb 6) ∧
    decode 0b111111100001_1001 = .ok (.inv 9) ∧
    decode 0b111111100010_1100 = .ok (.neg 12) ∧
    decode 0b111111100100_0011 = .ok (.jml 3) ∧
    decode 0b111111101000_0101 = .ok (.srs 5) ∧
    decode 0b111111101001_1010 = .ok (.srd 10) ∧
    decode 0b111111101010_1111 = .ok (.ers 15) ∧
    decode 0b111111101011_0100 = .ok (.erd 4) ∧
    decode 0b111111101100_1001 = .ok (.set 9) ∧
    decode 0b111111101101_0110 = .ok (.clr 6) ∧
    decode 0b111111101110_1111 = .ok (.set2 15) ∧
    decode 0b111111101111_1100 = .ok (.clr2 12) := by decide

/-- R101, R107: words written from the patterns. -/
theorem test_decode_mvs :
    decode 0b1111111100_0001_10 = .ok (.mvsFrom 1 .ss) ∧
    decode 0b1111111101_1110_11 = .ok (.mvsTo .es 14) := by decide

/-- R102, R107: words written from the patterns. -/
theorem test_decode_smv :
    decode 0b111111111000_1001 = .ok (.smvApc 9) ∧
    decode 0b111111111001_0110 = .ok (.smvApsw 6) ∧
    decode 0b111111111010_0011 = .ok (.smvPsw 3) ∧
    decode 0b111111111011_1100 = .ok (.smvAcs 12) := by decide

/-- R103, R107: words written from the patterns. -/
theorem test_decode_sys :
    decode 0b1111111111110000 = .ok .nop ∧
    decode 0b1111111111110001 = .ok .fsh ∧
    decode 0b1111111111110010 = .ok .swi ∧
    decode 0b1111111111110011 = .ok .reti := by decide

/-- R104, R107: words written from the patterns. -/
theorem test_decode_hlt :
    decode 0b1111111111111111 = .ok .hlt := by decide

/-- R91, R120 and the neighbours 95_test_vectors.md 2.11 names. -/
theorem test_decode_reserved :
    decode 0xFE30 = .error .sopType ∧ decode 0xFE3F = .error .sopType ∧ decode 0xFE50 = .error .sopType ∧
    decode 0xFE7F = .error .sopType ∧ decode 0xFFC0 = .error .tenOnes ∧ decode 0xFFDF = .error .tenOnes ∧
    decode 0xFFE0 = .error .elevenOnes ∧ decode 0xFFEF = .error .elevenOnes ∧ decode 0xFFF4 = .error .sysOp ∧
    decode 0xFFF7 = .error .sysOp ∧ decode 0xFFF8 = .error .thirteenOnes ∧ decode 0xFFFE = .error .thirteenOnes ∧
    decode 0xFE2F = .ok (.neg 15) ∧ decode 0xFE40 = .ok (.jml 0) ∧ decode 0xFE4F = .ok (.jml 15) := by decide

/-! ## One step (95_test_vectors.md section 2): the register named, the PSW, the pending transfer -/

/-- The conventions of 95_test_vectors.md section 0: the word at 0x0000:0x0200 in the normal view, the unsigned reading
of MulDivSigned where the table gives two. -/
def vec (regs : List (RegNum × Word)) (psw : Word) (mem : List (PhysAddr × Word)) (w : Nat) : State :=
  let start : State := { State.reset with
    normal := ⟨0x0200, 0x0000, psw⟩
    cfg := { defaultParams with mulDivSigned := false }
    mem := mem.foldl (fun m x => writeWord m x.1 x.2) [] }
  let loaded := regs.foldl (fun (s : State) x => s.setReg x.1 x.2) start
  ({ loaded with recent := [] } : State).withFetchWord 16 w

/-- What a vector looks at. -/
def seen (r : RegNum) : Result → Option (Word × Word × Option Transfer)
  | .next t => some (t.reg r, t.psw, t.dly)
  | _ => none

/-! ### 95_test_vectors.md 2.1: data movement -/

theorem test_ldi_flags_kept :
    seen 0 (step (vec [] 0x000F [] 0x0000)) = some (0x0000, 0x000F, none) := by decide

theorem test_lsi_negative :
    seen 1 (step (vec [] 0x0000 [] 0xFC30)) = some (0xFFF0, 0x0000, none) := by decide

theorem test_lsi_into_pc :
    seen 1 (step (vec [] 0x0000 [] 0xFDE8)) = some (0x0000, 0x0000, some ⟨none, 0x0008⟩) := by decide

theorem test_mov_wraps :
    seen 2 (step (vec [(1, 0xFFFF)] 0x0008 [] 0xF886)) = some (0x0001, 0x0008, none) := by decide

theorem test_mov_link :
    seen 14 (step (vec [] 0x0000 [] 0xFBBE)) = some (0x0203, 0x0000, none) := by decide

theorem test_amv_adds_three :
    seen 3 (step (vec [(1, 0x0010)] 0x0000 [] 0xF8C7)) = some (0x0013, 0x0000, none) := by decide

theorem test_mvsFrom_ss :
    seen 3 (step (vec [] 0x0000 [] 0xFF0E)) = some (0x8000, 0x0000, none) := by decide

theorem test_smvPsw :
    seen 5 (step (vec [] 0x5349 [] 0xFFA5)) = some (0x5349, 0x5349, none) := by decide

/-! ### 95_test_vectors.md 2.2: add and subtract -/

theorem test_addR_overflow :
    seen 1 (step (vec [(1, 0x8000), (2, 0xFFFF)] 0x0000 [] 0xC062)) = some (0x7FFF, 0x000C, none) := by decide

theorem test_addR_into_pc :
    seen 1 (step (vec [(1, 0x0010)] 0x0000 [] 0xC3E1)) = some (0x0010, 0x0000, some ⟨none, 0x0211⟩) := by decide

theorem test_addI_keeps_selectors :
    seen 1 (step (vec [(1, 0xFFF1)] 0x0700 [] 0xC07F)) = some (0x0000, 0x070A, none) := by decide

theorem test_anwR_no_result :
    seen 2 (step (vec [(2, 0x7000), (3, 0x1000)] 0x0000 [] 0xC083)) = some (0x7000, 0x0005, none) := by decide

theorem test_anwI_no_result :
    seen 2 (step (vec [(2, 0xFFFF)] 0x0000 [] 0xC091)) = some (0xFFFF, 0x000A, none) := by decide

theorem test_subR_flags :
    seen 1 (step (vec [(1, 0x7FFF), (2, 0xFFFF)] 0x0000 [] 0xC462)) = some (0x8000, 0x000D, none) := by decide

theorem test_subI_zero :
    seen 1 (step (vec [(1, 0x0001)] 0x0000 [] 0xC471)) = some (0x0000, 0x0002, none) := by decide

theorem test_cmpR_signed :
    seen 1 (step (vec [(1, 0x8000), (2, 0x0001)] 0x0000 [] 0xC442)) = some (0x8000, 0x0004, none) := by decide

theorem test_cmpI_borrow :
    seen 4 (step (vec [(4, 0x0001)] 0x0000 [] 0xC513)) = some (0x0001, 0x0009, none) := by decide

/-! ### 95_test_vectors.md 2.3: logic -/

theorem test_andR_negative :
    seen 4 (step (vec [(4, 0xF0F0), (5, 0xFF00)] 0x0000 [] 0xC925)) = some (0xF000, 0x0001, none) := by decide

theorem test_andI_keeps_vc :
    seen 4 (step (vec [(4, 0x1234)] 0x000C [] 0xC93F)) = some (0x0004, 0x000C, none) := by decide

theorem test_tstR_sign :
    seen 4 (step (vec [(4, 0x8000)] 0x0000 [] 0xC904)) = some (0x8000, 0x0001, none) := by decide

theorem test_tstI_zero :
    seen 4 (step (vec [(4, 0x1234)] 0x0000 [] 0xC918)) = some (0x1234, 0x0002, none) := by decide

theorem test_orR_negative :
    seen 6 (step (vec [(6, 0x8000), (7, 0x0001)] 0x0000 [] 0xCDA7)) = some (0x8001, 0x0001, none) := by decide

theorem test_orI :
    seen 6 (step (vec [(6, 0x0000)] 0x0000 [] 0xCDB1)) = some (0x0001, 0x0000, none) := by decide

theorem test_onwR_zero :
    seen 6 (step (vec [] 0x0000 [] 0xCD87)) = some (0x0000, 0x0002, none) := by decide

theorem test_onwI_no_result :
    seen 6 (step (vec [] 0x0000 [] 0xCD94)) = some (0x0000, 0x0000, none) := by decide

theorem test_xorR_same :
    seen 8 (step (vec [(8, 0xBEEF)] 0x000D [] 0xD228)) = some (0x0000, 0x000E, none) := by decide

theorem test_xorI :
    seen 8 (step (vec [(8, 0x00F0)] 0x0000 [] 0xD23F)) = some (0x00FF, 0x0000, none) := by decide

theorem test_tbcR_equal :
    seen 8 (step (vec [(8, 0x1234), (9, 0x1234)] 0x000C [] 0xD209)) = some (0x1234, 0x000E, none) := by decide

theorem test_tbcI_equal :
    seen 8 (step (vec [(8, 0x0005)] 0x0000 [] 0xD215)) = some (0x0005, 0x0002, none) := by decide

/-! ### 95_test_vectors.md 2.4: multiply and divide -/

theorem test_mul_high_half_lost :
    seen 2 (step (vec [(2, 0x0100), (3, 0x0100)] 0x000C [] 0xD4A3)) = some (0x0000, 0x000E, none) := by decide

theorem test_mnw_no_result :
    seen 2 (step (vec [(2, 0x0007)] 0x0000 [] 0xD483)) = some (0x0007, 0x0002, none) := by decide

theorem test_mul32_high :
    seen 5 (step (vec [(4, 0x1234), (6, 0x0100)] 0x0000 [] 0xD536)) = some (0x0012, 0x0000, none) := by decide

theorem test_mul32_unsigned :
    seen 5 (step (vec [(4, 0xFFFF), (6, 0xFFFF)] 0x0000 [] 0xD536)) = some (0xFFFE, 0x0001, none) := by decide

theorem test_mnw32_no_result :
    seen 4 (step (vec [(4, 0x1234), (6, 0x0100)] 0x0000 [] 0xD516)) = some (0x1234, 0x0000, none) := by decide

theorem test_div_quotient :
    seen 2 (step (vec [(2, 0x0064), (3, 0x0007)] 0x0000 [] 0xD8A3)) = some (0x000E, 0x0000, none) := by decide

theorem test_dnw_no_result :
    seen 2 (step (vec [(2, 0x0005), (3, 0x0009)] 0x0000 [] 0xD883)) = some (0x0005, 0x0002, none) := by decide

theorem test_div32_remainder :
    seen 5 (step (vec [(4, 0x0003), (6, 0x0005)] 0x0000 [] 0xD936)) = some (0x0003, 0x0002, none) := by decide

theorem test_div32_source_in_pair :
    seen 5 (step (vec [(4, 0x03E8), (5, 0x0007)] 0x0000 [] 0xD935)) = some (0x0006, 0x0000, none) := by decide

theorem test_dnw32_no_result :
    seen 4 (step (vec [(4, 0x0064), (6, 0x0007)] 0x0000 [] 0xD916)) = some (0x0064, 0x0000, none) := by decide

/-! ### 95_test_vectors.md 2.5: shifts -/

theorem test_sl_carry :
    seen 1 (step (vec [(1, 0x4000)] 0x0000 [] 0xDC42)) = some (0x0000, 0x000A, none) := by decide

theorem test_slc_carry_in :
    seen 1 (step (vec [(1, 0x0001)] 0x0008 [] 0xDC4C)) = some (0x0018, 0x0000, none) := by decide

theorem test_sr_carry :
    seen 1 (step (vec [(1, 0x0001)] 0x0000 [] 0xDC51)) = some (0x0000, 0x000A, none) := by decide

theorem test_src_carry_in :
    seen 1 (step (vec [(1, 0x8001)] 0x0008 [] 0xDC59)) = some (0x4000, 0x0008, none) := by decide

theorem test_sra_sign :
    seen 1 (step (vec [(1, 0xFF0F)] 0x0000 [] 0xDC64)) = some (0xFFF0, 0x0009, none) := by decide

theorem test_sac_carry_in :
    seen 1 (step (vec [(1, 0x0100)] 0x0008 [] 0xDC6F)) = some (0x0102, 0x0000, none) := by decide

theorem test_ror_count_zero :
    seen 1 (step (vec [(1, 0x1234)] 0x0008 [] 0xDC70)) = some (0x1234, 0x0008, none) := by decide

theorem test_ror_keeps_carry :
    seen 1 (step (vec [(1, 0x1234)] 0x0008 [] 0xDC74)) = some (0x4123, 0x0008, none) := by decide

theorem test_roc_carry_in :
    seen 1 (step (vec [(1, 0x1234)] 0x0008 [] 0xDC7C)) = some (0x4923, 0x0008, none) := by decide

/-- A shift vector on R1 under another value of ShiftNumerics (42_shift.md R181, by hand from the alternative each
field names). -/
def shiftVec (nm : ShiftNumerics) (a psw : Word) (w : Nat) : State :=
  { vec [(1, a)] psw [] w with cfg := { defaultParams with shiftNumerics := nm } }

/-- The usual place: the carry enters the vacated top bit. -/
theorem test_src_usual_place :
    seen 1 (step (shiftVec ⟨.usual, .lastOut, .carryKept, false, false⟩ 0x0002 0x0008 0xDC59)) =
      some (0x8001, 0x0001, none) := by decide

/-- "C = MSB" read as the operand's MSB: `SL R1, 2` of 0x4000 leaves C = 0 where the last bit out is 1. -/
theorem test_sl_edge_carry :
    seen 1 (step (shiftVec ⟨.printed, .edge, .carryKept, false, false⟩ 0x4000 0x0008 0xDC42)) =
      some (0x0000, 0x0002, none) := by decide

/-- A count of 0 that writes no flag, and one that applies the carry-in term and clears C. -/
theorem test_src_count_zero :
    seen 1 (step (shiftVec ⟨.printed, .lastOut, .flagsKept, false, false⟩ 0x8001 0x000A 0xDC58)) =
      some (0x8001, 0x000A, none) ∧
    seen 1 (step (shiftVec ⟨.printed, .lastOut, .carryCleared, true, false⟩ 0x0001 0x0008 0xDC58)) =
      some (0x8001, 0x0001, none) := by decide

/-- A rotate that writes C as a right shift does. -/
theorem test_roc_writes_carry :
    seen 1 (step (shiftVec ⟨.usual, .lastOut, .carryKept, false, true⟩ 0x0002 0x0008 0xDC79)) =
      some (0x8001, 0x0001, none) := by decide

/-! ### 95_test_vectors.md 2.6: single operand -/

theorem test_swb_no_flags :
    seen 1 (step (vec [(1, 0x1234)] 0x000F [] 0xFE01)) = some (0x3412, 0x000F, none) := by decide

theorem test_inv_no_flags :
    seen 1 (step (vec [(1, 0xFFFF)] 0x0000 [] 0xFE11)) = some (0x0000, 0x0000, none) := by decide

theorem test_neg :
    seen 1 (step (vec [(1, 0xCBED)] 0x0000 [] 0xFE21)) = some (0x3413, 0x0000, none) := by decide

/-! ### 95_test_vectors.md 2.7: memory access -/

theorem test_ld_offset_wraps :
    seen 1 (step (vec [(2, 0xFFF0)] 0x0000 [(0x1000F, 0x1111)] 0x825F)) = some (0x1111, 0x0000, none) := by decide

theorem test_ld_stack_first :
    seen 2 (step (vec [(5, 0x0100)] 0x2940 [(0x80100, 0x5555), (0x20100, 0x7777)] 0x84A0)) =
      some (0x5555, 0x2940, none) := by decide

theorem test_lds_from_pc :
    seen 1 (step (vec [] 0x0000 [(0x20201, 0x2222)] 0xF31F)) = some (0x2222, 0x0000, none) := by decide

/-! ### 95_test_vectors.md 2.8: jumps, with X = 0x0200 -/

theorem test_jz_not_taken :
    seen 1 (step (vec [] 0x000D [] 0xE005)) = some (0x0000, 0x000D, none) := by decide

theorem test_jnz_backward :
    seen 1 (step (vec [] 0x0000 [] 0xE3FD)) = some (0x0000, 0x0000, some ⟨none, 0x01FF⟩) := by decide

theorem test_jc_taken :
    seen 1 (step (vec [] 0x0008 [] 0xE405)) = some (0x0000, 0x0008, some ⟨none, 0x0207⟩) := by decide

theorem test_jnc_not_taken :
    seen 1 (step (vec [] 0x0008 [] 0xE605)) = some (0x0000, 0x0008, none) := by decide

theorem test_jn_taken :
    seen 1 (step (vec [] 0x0001 [] 0xE805)) = some (0x0000, 0x0001, some ⟨none, 0x0207⟩) := by decide

theorem test_jnn_farthest_back :
    seen 1 (step (vec [] 0x0000 [] 0xEB00)) = some (0x0000, 0x0000, some ⟨none, 0x0102⟩) := by decide

theorem test_jo_taken :
    seen 1 (step (vec [] 0x0004 [] 0xEC05)) = some (0x0000, 0x0004, some ⟨none, 0x0207⟩) := by decide

theorem test_jno_farthest_on :
    seen 1 (step (vec [] 0x0000 [] 0xEEFF)) = some (0x0000, 0x0000, some ⟨none, 0x0301⟩) := by decide

theorem test_jz_taken :
    seen 1 (step (vec [] 0x0002 [] 0xE005)) = some (0x0000, 0x0002, some ⟨none, 0x0207⟩) := by decide

theorem test_jml_pair :
    seen 10 (step (vec [(10, 0x1000), (11, 0x0200)] 0x0000 [] 0xFE4A)) =
      some (0x1000, 0x0000, some ⟨some 0x1000, 0x0200⟩) := by decide

theorem test_jml_r14 :
    seen 14 (step (vec [(14, 0x0040)] 0x0000 [] 0xFE4E)) =
      some (0x0040, 0x0000, some ⟨some 0x0040, 0x0201⟩) := by decide

/-! ### 95_test_vectors.md 2.9: PSW operations -/

theorem test_srs :
    seen 13 (step (vec [] 0xD41F [] 0xFE8D)) = some (0x7FFF, 0xD35F, none) := by decide

theorem test_srd :
    seen 12 (step (vec [(12, 0xDEAD)] 0x0000 [] 0xFE9C)) = some (0xDEAD, 0x0700, none) := by decide

theorem test_ers :
    seen 0 (step (vec [] 0xD34F [] 0xFEA0)) = some (0x0000, 0x034F, none) := by decide

theorem test_erd :
    seen 10 (step (vec [] 0x0340 [] 0xFEBA)) = some (0x0000, 0xD340, none) := by decide

theorem test_set :
    seen 0 (step (vec [] 0x0000 [] 0xFECF)) = some (0x0000, 0x8000, none) := by decide

theorem test_clr :
    seen 0 (step (vec [] 0xFFDF [] 0xFED0)) = some (0x0000, 0xFFDE, none) := by decide

theorem test_clr_s_already_clear :
    seen 0 (step (vec [] 0xFFDF [] 0xFED5)) = some (0x0000, 0xFFDF, none) := by decide

theorem test_set2 :
    seen 0 (step (vec [] 0x0000 [] 0xFEEB)) = some (0x0000, 0x8000, none) := by decide

theorem test_clr2 :
    seen 0 (step (vec [] 0xFFDF [] 0xFEF2)) = some (0x0000, 0xFF9F, none) := by decide

/-! ### 95_test_vectors.md 2.10: system -/

theorem test_nop :
    seen 13 (step (vec [] 0x000F [] 0xFFF0)) = some (0x7FFF, 0x000F, none) := by decide

/-! ### Stores, segments, banks, system (95_test_vectors.md 2.1, 2.7, 2.10; section 1 S4) -/

/-- The word at a physical address after a completed step. -/
def seenWord (a : PhysAddr) : Result → Option Word
  | .next t => readWord t.mem a
  | _ => none

/-- The banks and the view after a completed step. -/
def seenBanks : Result → Option (View × Bank × Bank)
  | .next t => some (t.view, t.normal, t.shadow)
  | _ => none

/-- Whether a step completes in a state the test accepts. -/
def passes (f : State → Bool) : Result → Bool
  | .next t => f t
  | _ => false

/-- Whether a step is refused for the reason named. -/
def refusedFor (r : Refusal) : Result → Bool
  | .refused r' => r == r'
  | _ => false

theorem test_st_through_stack_pair :
    seenWord 0x87FF3 (step (vec [(12, 0x7FF0), (14, 0x0203)] 0x0700 [] 0xBD83)) = some 0x0203 := by decide

theorem test_st_pc_stores_next :
    seenWord 0x10040 (step (vec [(2, 0x0040)] 0 [] 0xBE40)) = some 0x0201 := by decide

theorem test_st_boot_rom_refused :
    refusedFor .romStore (step { vec [(1, 1), (2, 0xFFF0)] 0 [] 0xA240 with ds := 0xF000 }) = true := by decide

theorem test_sts_extra :
    seenWord 0x20008 (step (vec [(7, 0x0042), (9, 0x0008)] 0 [] 0xF779)) = some 0x0042 := by decide

theorem test_sts_screen_cell :
    passes (fun t => decide 
        (t.platformOut = [⟨0xF1000, 0x0741⟩] ∧ screenCell t 0xF1000 = some 0x0741 ∧ t.mem.length = 2))
      (step { vec [(1, 0x0741), (10, 0x1000)] 0 [] 0xF71A with es := 0xF000 }) = true := by decide

theorem test_ld_odd_dual_refused :
    refusedFor .oddDualPair (step (vec [(12, 0x0100)] 0x0740 [] 0x8580)) = true := by decide

theorem test_mvsTo_es :
    passes (fun t => decide (t.es = 0xF000 ∧ t.ds = 0x1000))
      (step (vec [(0, 0xF000)] 0 [] 0xFF43)) = true := by
  decide

theorem test_mvsTo_cs_refused : refusedFor .mvsToCs (step (vec [(0, 0x0010)] 0 [] 0xFF40)) = true := by decide

/-- The shadow view of the SMV rows of 2.1: X = 0x0300, PSW_s = 0x0022, normal bank 0x0107, 0x0040, 0x0002. -/
def shadowVec (w : Nat) : State :=
  ({ vec [] 0 [] 0xFFF0 with
    view := .shadow
    normal := ⟨0x0107, 0x0040, 0x0002⟩
    shadow := ⟨0x0300, 0x0000, 0x0022⟩
    mem := [] } : State).withFetchWord 16 w

theorem test_smvApc : seen 4 (step (shadowVec 0xFF84)) = some (0x0107, 0x0022, none) := by decide
theorem test_smvApsw : seen 5 (step (shadowVec 0xFF95)) = some (0x0002, 0x0022, none) := by decide
theorem test_smvAcs : seen 10 (step (shadowVec 0xFFBA)) = some (0x0040, 0x0022, none) := by decide

theorem test_mul32_odd_refused : refusedFor .oddPair (step (vec [(5, 2), (6, 3)] 0 [] 0xD576)) = true := by decide
theorem test_jml_odd_refused : refusedFor .oddJml (step (vec [(3, 0x0040)] 0 [] 0xFE43)) = true := by decide
theorem test_set_s_refused : refusedFor .viewChange (step (vec [] 0 [] 0xFEC5)) = true := by decide
theorem test_set2_bit16_refused : refusedFor .pswBitAbove15 (step (vec [] 0 [] 0xFEEC)) = true := by decide
theorem test_clr2_bit16_refused : refusedFor .pswBitAbove15 (step (vec [] 0xFFDF [] 0xFEFC)) = true := by decide

/-- ALNK in the delay slot of JMP R3, section 1 S4: R14 = X + 1, and the transfer completes. -/
theorem test_amv_link_in_slot :
    passes (fun t => decide (t.reg 14 = 0x0201 ∧ t.pc = 0x0400 ∧ t.dly = none))
      (step { vec [(3, 0x0400)] 0 [] 0xFBBF with dly := some ⟨none, 0x0400⟩ }) = true := by decide

/-- A register jump in a delay slot (45_control_flow.md R243). -/
theorem test_mov_pc_in_slot_refused :
    refusedFor .transferInSlot
      (step { vec [(3, 0x0400)] 0 [] 0xFBCC with dly := some ⟨none, 0x0500⟩ }) = true := by decide

theorem test_fsh :
    passes (fun t => decide (t.recent = [] ∧ t.stored = [] ∧ t.psw = 0x000F ∧ t.pc = 0x0201))
      (step { vec [] 0x000F [] 0xFFF1 with recent := [⟨1, 5, 0⟩] }) = true := by decide

theorem test_swi :
    seenBanks (step ({ vec [] 0x0013 [(0x00002, 0x0300)] 0xFFF2 with shadow := ⟨7, 7, 7⟩ })) =
      some (.shadow, ⟨0x0201, 0x0000, 0x0013⟩, ⟨0x0300, 0x0000, 0x0023⟩) := by decide

theorem test_reti :
    seenBanks (step (shadowVec 0xFFF3)) = some (.normal, ⟨0x0107, 0x0040, 0x0002⟩, ⟨0x0301, 0x0000, 0x0022⟩) := by
  decide

theorem test_hlt :
    passes (fun t => decide (t.halted = true ∧ t.pc = 0x0201))
      (step (vec [] 0 [] 0xFFFF)) = true := by decide

theorem test_hardware_interrupt :
    seenBanks (step { vec [] 0x0012 [(0x00001, 0x0280)] 0xFFF0 with env := [⟨false, true⟩] }) =
      some (.shadow, ⟨0x0200, 0x0000, 0x0012⟩, ⟨0x0280, 0x0000, 0x0022⟩) := by decide

theorem test_hardware_interrupt_masked :
    passes (fun t => decide (t.view = .normal ∧ t.pc = 0x0201))
      (step { vec [] 0x0002 [(0x00001, 0x0280)] 0xFFF0 with env := [⟨false, true⟩] }) = true := by decide

/-! ## The host's two functions (log 17) -/

theorem test_decodeTableWord : decodeTableWord 16 0xC062 = some (.addR 1 2) ∧ decodeTableWord 16 0xFFF8 = none := by
  decide

theorem test_withFetchWord_from_reset :
    passes (fun t => decide (t.reg 1 = 1 ∧ t.pc = 1))
      (step (State.reset.withFetchWord 16 0xFC21)) = true := by
  decide

/-! ## Witnesses: states and operands that meet the hypotheses of each obligation, clause by clause -/

/-- A NOP in the delay slot of a transfer to 0x0400, in the normal view. -/
def inSlot : State := { vec [(1, 0x0003), (2, 0x0004)] 0 [] 0xFFF0 with dly := some ⟨none, 0x0400⟩ }

/-- A handler's state: the shadow view with PSW_s.S = 1, a NOP next. -/
def inHandler : State := shadowVec 0xFFF0

theorem witness_DecodeOfEncode : (Instr.mov 15 0 2).wellFormed = true ∧ (Instr.mov 0 15 0).wellFormed = true := by
  decide

theorem witness_EncodeOfDecode : decode 0x0000 = .ok (.ldi 0) ∧ decode 0xFFFF = .ok .hlt := by decide

theorem witness_ReservedWords :
    (∀ why, decode 0xFFF3 ≠ .error why) ∧
    RunsInstruction (vec [] 0 [] 0xFFFE) ∧ Fetches (vec [] 0 [] 0xFFFE) 0xFFFE ∧
    decode 0xFFFE = .error .thirteenOnes ∧
    (∃ s : State, RunsInstruction s ∧ IsPlatform (phys s.cs s.pc) ∧ s.platformIn = [0xFFFE]) := by
  refine ⟨fun _ h => (by cases h), by unfold RunsInstruction; decide, by unfold Fetches IsPlatform; decide, rfl,
    { State.reset with normal := ⟨0x1000, 0xF000, 0⟩, platformIn := [0xFFFE] }, ?_, ?_, rfl⟩
  · unfold RunsInstruction; decide
  · unfold IsPlatform; decide

theorem witness_StepRunsDecodedInstruction :
    (RunsInstruction (vec [] 0 [] 0xC062) ∧ Fetches (vec [] 0 [] 0xC062) 0xC062 ∧
      decode 0xC062 = .ok (.addR 1 2)) ∧
    (RunsInstruction inSlot ∧ Fetches inSlot 0xFFF0 ∧ inSlot.dly ≠ none) ∧
    (∃ s : State, RunsInstruction s ∧ IsPlatform (phys s.cs s.pc) ∧ s.platformIn = [0xFFF0]) ∧
    (∃ s : State, RunsInstruction s ∧ ¬IsPlatform (phys s.cs s.pc) ∧ s.stored = [] ∧
      readWord s.mem (phys s.cs s.pc) = none) := by
  refine ⟨?_, ?_, ⟨{ State.reset with normal := ⟨0, 0xE000, 0⟩, platformIn := [0xFFF0] }, ?_⟩,
    ⟨{ State.reset with normal := ⟨0, 0, 0⟩ }, ?_⟩⟩ <;>
  unfold RunsInstruction <;> first | (unfold Fetches IsPlatform; decide) | (unfold IsPlatform; decide)

theorem witness_DelaySlotCompletesTransfer :
    NoReset inSlot ∧ inSlot.halted = false ∧ inSlot.dly = some ⟨none, 0x0400⟩ ∧ (∃ t, step inSlot = .next t) ∧
    (∃ (s t : State), NoReset s ∧ s.halted = false ∧ s.dly = some ⟨some 0x0040, 0x0010⟩ ∧ step s = .next t) :=
  ⟨rfl, rfl, rfl, ⟨_, rfl⟩, { inSlot with dly := some ⟨some 0x0040, 0x0010⟩ }, _, rfl, rfl, rfl, rfl⟩

theorem witness_EachStepSamplesOneBoundary : ∃ t, step State.reset = .next t := ⟨_, rfl⟩

theorem witness_HardwareInterruptAcceptance :
    (∃ s : State, NoReset s ∧ s.halted = false ∧ s.boundary.irq = true ∧ pswI s.psw = true ∧ s.dly = none) ∧
    (∃ s : State, NoReset s ∧ s.halted = false ∧ ¬(s.boundary.irq = true ∧ pswI s.psw = true ∧ s.dly = none)) ∧
    (∃ s : State, NoReset s ∧ s.halted = true) ∧ (∃ s : State, s.dly = none) := by
  refine ⟨⟨{ vec [] 0x0010 [] 0xFFF0 with env := [⟨false, true⟩] }, rfl, rfl, rfl, rfl, rfl⟩,
    ⟨{ inSlot with env := [⟨false, true⟩], normal := ⟨0x0200, 0, 0x0010⟩ }, rfl, rfl, ?_⟩,
    ⟨{ State.reset with halted := true }, rfl, rfl⟩, ⟨State.reset, rfl⟩⟩
  decide

theorem witness_InterruptEntryEffect :
    readWord (vec [] 0 [(0x00001, 0x0280)] 0xFFF0).mem 0x00001 = some 0x0280 ∧
    readWord (vec [] 0 [(0x00002, 0x0300)] 0xFFF0).mem 0x00002 = some 0x0300 := by decide

theorem witness_SwiEntersHandler :
    ((vec [] 0 [(0x00002, 0x0300)] 0xFFF2).dly = none ∧
      readWord (vec [] 0 [(0x00002, 0x0300)] 0xFFF2).mem 2 = some 0x0300) ∧
    (State.reset.dly = none ∧ readWord State.reset.mem 2 = none) ∧ inSlot.dly ≠ none := by decide

theorem witness_RetiReturns :
    (State.reset.dly = none ∧ State.reset.view = .normal) ∧ inSlot.dly ≠ none ∧
    (∃ s t u r : State, s.view = .normal ∧ exec .swi s = .next t ∧ u.normal = t.normal ∧ exec .reti u = .next r) :=
  ⟨⟨rfl, rfl⟩, by decide, vec [] 0x0013 [(0x00002, 0x0300)] 0xFFF0, _, _, _, rfl, rfl, rfl, rfl⟩

theorem witness_HandlerKeepsInterruptedContext :
    (NoReset inHandler ∧ inHandler.view = .shadow ∧ ∃ t, step inHandler = .next t) ∧
    (∃ t, exec .reti inHandler = .next t) ∧ (∃ t, exec .nop inHandler = .next t) :=
  ⟨⟨rfl, rfl, _, rfl⟩, ⟨_, rfl⟩, _, rfl⟩

theorem witness_InactiveBankKept :
    NoReset inHandler ∧ ∃ t, step inHandler = .next t ∧ t.view = inHandler.view := ⟨rfl, _, rfl, rfl⟩

theorem witness_ViewBitsKept :
    (ViewBits inHandler ∧ ∃ t, step inHandler = .next t) ∧ NoReset inHandler ∧
    pswS inHandler.shadow.psw = true := by
  refine ⟨⟨?_, _, rfl⟩, rfl, rfl⟩
  unfold ViewBits; decide

theorem witness_MemoryCanonicalKept :
    MemoryCanonical (vec [(1, 7), (2, 0xFFFF)] 0 [] 0xF412) ∧
    ∃ t, step (vec [(1, 7), (2, 0xFFFF)] 0 [] 0xF412) = .next t ∧ t.mem.length = 4 :=
  ⟨rfl, _, rfl, rfl⟩

theorem witness_BootRomKept : RomIntact State.reset ∧ ∃ t, step State.reset = .next t :=
  ⟨fun _ _ => rfl, _, rfl⟩

theorem witness_WindowsBoundedKept :
    WindowsBounded { inHandler with recent := [⟨14, 0, 3⟩], stored := [⟨0xDFFFF, none, 4⟩] } ∧
    ∃ t, step { inHandler with recent := [⟨14, 0, 3⟩], stored := [⟨0xDFFFF, none, 4⟩] } = .next t := by
  refine ⟨?_, _, rfl⟩
  unfold WindowsBounded; decide

theorem witness_HaltIsTerminal : ∃ s : State, s.halted = true ∧ NeverReset s ∧ s.env.length = 2 :=
  ⟨{ State.reset with halted := true, env := [⟨false, true⟩, ⟨false, false⟩] }, rfl,
    by unfold NeverReset; decide, rfl⟩

theorem witness_ResetOverridesEverything :
    ({ inHandler with halted := true, env := [⟨true, true⟩] } : State).boundary.reset = true := rfl

theorem witness_OnlyTransfersMoveThePc :
    (∃ t, exec (.jnz 5) State.reset = .next t) ∧ (Instr.jnz 5 ≠ .swi ∧ Instr.jnz 5 ≠ .reti) ∧
    Transfers (.jnz 5) State.reset.psw :=
  ⟨⟨_, rfl⟩, by decide, .inl rfl⟩

theorem witness_TransferInSlotRefused :
    inSlot.dly ≠ none ∧ Transfers (.jnz 5) inSlot.psw ∧ Transfers (.jml 0) inSlot.psw ∧
    Transfers (.lsi 15 0) inSlot.psw ∧
    Transfers .swi inSlot.psw ∧ Transfers .reti inSlot.psw ∧ condition inSlot.psw (.jz 5) = some false ∧
    NoReset inSlot ∧ inSlot.halted = false := by
  refine ⟨by decide, .inl rfl, .inr (.inl rfl), .inr (.inr (.inl ?_)), .inr (.inr (.inr (.inl rfl))),
    .inr (.inr (.inr (.inr rfl))), rfl, rfl, rfl⟩
  decide

theorem witness_PcReadInSlot :
    inSlot.dly ≠ none ∧ (15 : RegNum) ∈ sources (.addR 1 15) ∧ (14 : RegNum) ≠ 15 := by decide

/-- Every situation in which the spec refuses, and one in which it does not. -/
theorem witness_ExecStopsExactlyWhereSpecRefuses :
    (Instr.addR 15 15).wellFormed = true ∧ (∃ t, exec (.addR 15 15) State.reset = .next t) ∧
    (Refuses (.addR 1 15) inSlot ∧ Refuses (.mul32 5 6) State.reset ∧ Refuses (.jml 3) State.reset ∧
      Refuses (.set2 12) State.reset ∧ Refuses (.set 5) State.reset ∧ Refuses (.clr2 1) inHandler ∧
      Refuses (.mvsTo .cs 0) State.reset ∧ Refuses (.ld 1 12 0) (vec [] 0x0740 [] 0xFFF0) ∧
      Refuses (.sts 1 .cs 0) State.reset) := by
  refine ⟨rfl, ⟨_, rfl⟩, .inl ⟨by decide, .inr (by decide)⟩, .inr (.inl ⟨5, 6, .inl rfl, by decide⟩),
    .inr (.inr (.inl ⟨3, rfl, by decide⟩)), .inr (.inr (.inr (.inl ⟨12, .inl rfl, by decide⟩))),
    .inr (.inr (.inr (.inr (.inl ⟨.inl rfl, by decide⟩)))),
    .inr (.inr (.inr (.inr (.inr (.inl ⟨.inr rfl, by decide⟩))))),
    .inr (.inr (.inr (.inr (.inr (.inr (.inl ⟨0, rfl⟩)))))),
    .inr (.inr (.inr (.inr (.inr (.inr (.inr (.inl ⟨1, 12, 0, .inl rfl, by decide⟩))))))),
    .inr (.inr (.inr (.inr (.inr (.inr (.inr (.inr (.inr ⟨1, .cs, 0, rfl, ?_⟩))))))))⟩
  unfold IsRom; decide

theorem witness_PswWrittenOnlyAsNamed :
    (∃ t, exec (.set 15) State.reset = .next t) ∧ (∃ t, exec (.div 2 1) (vec [(1, 3)] 0 [] 0) = .next t) ∧
    (3 ∉ pswWrites defaultParams (.roc 0 0)) :=
  ⟨⟨_, rfl⟩, ⟨_, rfl⟩, by decide⟩

theorem witness_MemoryTouchedOnlyAsNamed :
    (∃ t, exec (.addR 1 2) State.reset = .next t) ∧ isStore (.addR 1 2) = false ∧ isLoad (.addR 1 2) = false :=
  ⟨⟨_, rfl⟩, rfl, rfl⟩

theorem witness_OnlyDestinationsChange :
    (∃ t, exec (.mul32 14 1) (vec [(14, 2), (1, 3)] 0 [] 0) = .next t) ∧ (13 : RegNum) ∉ dests (.mul32 14 1) ∧
    (∀ g rd, Instr.mul32 14 1 ≠ .mvsTo g rd) :=
  ⟨⟨_, rfl⟩, by decide, fun _ _ h => (by cases h)⟩

/-- Each clause at an end of the register numbers: the stack and the extra set by the selector itself and by each
pair, refused by each set, and neither. -/
theorem witness_ImplicitSegment :
    (InSet .refuse 1 false 1 ∧ InSet .refuse 14 true 15 ∧ InSet .xorOne 15 true 14 ∧ InSet .plusOne 13 true 14) ∧
    (SetRefused .refuse 1 true 2 ∧ SetRefused .refuse 15 true 14) ∧
    (¬InSet .plusOne 13 true 12 ∧ ¬SetRefused .plusOne 13 true 12 ∧ ¬InSet .xorOne 13 true 14 ∧
      ¬SetRefused .xorOne 13 true 14 ∧ ¬InSet .refuse 0 true 1 ∧ ¬SetRefused .refuse 0 true 1) ∧
    (pswSR (0xFFC0 : Word) = 15 ∧ pswDS (0xFFC0 : Word) = true ∧ pswER (0xFFC0 : Word) = 15 ∧
      pswDE (0xFFC0 : Word) = true) := by
  unfold InSet SetRefused; and_intros <;> decide

theorem witness_SegmentSelectionExamples :
    (pswSR (0x0340 : Word) = 13 ∧ pswER (0x0340 : Word) = 0 ∧ pswDS (0x0340 : Word) = false) ∧
    (pswSR (0x5800 : Word) = 0 ∧ pswER (0x5800 : Word) = 11 ∧ pswDE (0x5800 : Word) = false) ∧
    (pswSR (0x0740 : Word) = 13 ∧ pswDS (0x0740 : Word) = true) ∧
    (pswSR (0xD000 : Word) = 0 ∧ pswER (0xD000 : Word) = 10 ∧ pswDE (0xD000 : Word) = true) := by decide

/-- Each case of a load: a word, nothing written, the platform with and without an answer; the addresses are the ends
of the regions. -/
theorem witness_LoadResult :
    (Usable inHandler 15 ∧ implicitSeg inHandler 0 = some .ds) ∧
    (¬IsPlatform 0xDFFFF ∧ readWord (vec [] 0 [(0xDFFFF, 7)] 0).mem 0xDFFFF = some 7) ∧
    (¬IsPlatform 0xFFFF0 ∧ readWord State.reset.mem 0xFFFF0 = some 0) ∧ readWord State.reset.mem 0xDFFFF = none ∧
    (IsPlatform 0xE0000 ∧ IsPlatform 0xFFFEF) ∧ State.reset.platformIn = [] ∧
    implicitSeg (vec [] 0x0740 [] 0) 12 = none := by
  refine ⟨⟨fun _ => rfl, by decide⟩, ?_⟩
  unfold IsPlatform; decide

theorem witness_StoreResult :
    MemoryCanonical State.reset ∧ Usable State.reset 15 ∧ implicitSeg State.reset 13 = some .ds ∧
    (IsHome 0x00000 ∧ IsHome 0xDFFFF ∧ IsPlatform 0xE0000 ∧ IsPlatform 0xFFFEF ∧ IsRom 0xFFFF0 ∧ IsRom 0xFFFFF) ∧
    implicitSeg (vec [] 0x0740 [] 0) 14 = none := by
  refine ⟨rfl, fun _ => rfl, rfl, ?_, by decide⟩
  unfold IsHome IsPlatform IsRom; decide

/-- A store through ES, by STS and by ST with R9 as the extra register, and a load of the same location through DS, by
LDS and by LD with a displacement. -/
theorem witness_LoadSeesLatestStore :
    ∃ (s t : State), MemoryCanonical s ∧ IsHome 0x20008 ∧ StoresTo (.sts 7 .es 9) s 7 9 0x20008 ∧
      StoresTo (.st 7 9 0) s 7 9 0x20008 ∧ exec (.sts 7 .es 9) s = .next t ∧ exec (.st 7 9 0) s = .next t ∧
      LoadsFrom (.lds 1 .ds 8) t 1 8 0x20008 ∧ LoadsFrom (.ld 1 10 31) t 1 10 0x20008 ∧
      Usable t 1 ∧ Usable t 8 ∧ Usable t 10 := by
  refine ⟨{ vec [(7, 0x0042), (9, 0x0008), (8, 0x0018), (10, 0xFFF9)] 0x4800 [] 0xFFF0 with ds := 0x1FFF }, _, rfl, ?_,
    .inr ⟨.es, rfl, rfl⟩, .inl ⟨0, .es, rfl, rfl, rfl⟩, rfl, rfl, .inr ⟨.ds, rfl, rfl⟩, .inl ⟨31, .ds, rfl, rfl, rfl⟩,
    fun _ => rfl, fun _ => rfl, fun _ => rfl⟩
  unfold IsHome; decide

theorem witness_FetchAfterStore :
    ∃ (s : State) (e : StoreRec), ¬IsPlatform 0x00300 ∧ e ∈ s.stored ∧ e.addr = 0x00300 ∧ State.reset.stored = [] ∧
      exec .fsh s = .next { s with recent := [], stored := [] } ∧ ∃ t, exec .reti s = .next t := by
  refine ⟨{ State.reset with stored := [⟨0x00300, some 1, 0⟩] }, ⟨0x00300, some 1, 0⟩, ?_, by decide, rfl, rfl, rfl,
    _, rfl⟩
  unfold IsPlatform; decide

/-- The last screen cell by STS, and the first by ST through the extra register R10, as program P4 of
95_test_vectors.md writes it. -/
theorem witness_ScreenShowsLastStore :
    (∃ (s t : State), StoresTo (.sts 1 .es 10) s 1 10 0xF17CF ∧ exec (.sts 1 .es 10) s = .next t) ∧
    (∃ (s t : State), StoresTo (.st 1 10 0) s 1 10 0xF1000 ∧ exec (.st 1 10 0) s = .next t) :=
  ⟨⟨{ vec [(1, 0x0741), (10, 0x17CF)] 0 [] 0xFFF0 with es := 0xF000 }, _, .inr ⟨.es, rfl, rfl⟩, rfl⟩,
    { vec [(1, 0x0741), (10, 0x1000)] 0xD340 [] 0xFFF0 with es := 0xF000 }, _, .inl ⟨0, .es, rfl, rfl, rfl⟩, rfl⟩

theorem witness_LsiResult : Usable State.reset 15 ∧ Usable inSlot 0 := ⟨fun _ => rfl, fun h => by cases h⟩

theorem witness_MovResult : (2 : BitVec 2) ≠ 3 ∧ Usable State.reset 15 := ⟨by decide, fun _ => rfl⟩

theorem witness_ArchitecturalRead :
    Usable inSlot 14 ∧ (∀ e ∈ inSlot.recent, e.reg ≠ 14) ∧
    (∃ s : State, Usable s 15 ∧ ∃ e ∈ s.recent, e.reg = 14) :=
  ⟨fun h => (by cases h), by decide, { State.reset with recent := [⟨14, 5, 3⟩] }, fun _ => rfl, ⟨14, 5, 3⟩,
    by decide, rfl⟩

theorem witness_MvsResult : Usable State.reset 15 := fun _ => rfl

theorem witness_SmvResult :
    (Usable State.reset 15 ∧ State.reset.view = .normal) ∧ Usable inHandler 15 ∧ inHandler.view = .shadow :=
  ⟨⟨fun _ => rfl, rfl⟩, fun _ => rfl, rfl⟩

theorem witness_AddResult : Usable State.reset 15 ∧ Usable inSlot 14 := ⟨fun _ => rfl, fun h => by cases h⟩

theorem witness_SubResult :
    ∃ carry : Word → Bool, Usable State.reset 15 ∧ ∀ x, carry x = match State.reset.cfg.subCarry with
      | .borrow => decide ((State.reset.reg 15).toNat < x.toNat)
      | .notBorrow => decide (x.toNat ≤ (State.reset.reg 15).toNat) :=
  ⟨fun x => decide ((State.reset.reg 15).toNat < x.toNat), fun _ => rfl, fun _ => rfl⟩

theorem witness_CompareOrders :
    State.reset.cfg.subCarry = .borrow ∧ (∃ t, exec (.cmpR 13 15) State.reset = .next t) ∧
    ∃ t, exec (.cmpI 15 15) State.reset = .next t := ⟨rfl, ⟨_, rfl⟩, _, rfl⟩

theorem witness_LogicResult : Usable State.reset 15 ∧ Usable inSlot 14 := ⟨fun _ => rfl, fun h => by cases h⟩

theorem witness_MulResult : Usable State.reset 15 := fun _ => rfl

theorem witness_WideMultiplyResult :
    ((14 : RegNum).getLsbD 0 = false ∧ Usable State.reset 15 ∧ Usable State.reset (14 + 1)) ∧
    (15 : RegNum).getLsbD 0 = true ∧ (vec [] 0 [] 0).cfg.mulDivSigned = false :=
  ⟨⟨by decide, fun _ => rfl, fun _ => rfl⟩, by decide, rfl⟩

theorem witness_DivideResult :
    (∃ s : State, Usable s 14 ∧ Usable s (14 + 1) ∧ s.reg 1 = 0xFFFF ∧ s.reg 14 = 0x8000 ∧
      s.cfg.mulDivSigned = false) ∧
    (∃ s : State, Usable s 14 ∧ s.reg 1 ≠ 0 ∧ s.reg 14 = 0x8001 ∧ s.cfg.mulDivSigned = true) ∧
    (1 : RegNum).getLsbD 0 = true := by
  refine ⟨⟨vec [(14, 0x8000), (1, 0xFFFF)] 0 [] 0, fun _ => rfl, fun _ => rfl, rfl, rfl, rfl⟩,
    ⟨{ vec [(14, 0x8001), (1, 0xFFFF)] 0 [] 0 with cfg := { defaultParams with mulDivSigned := true } },
      fun _ => rfl, ?_, rfl, rfl⟩, by decide⟩
  decide

theorem witness_DivideOpenValues :
    (∃ s : State, Usable s 15 ∧ Usable s (14 + 1) ∧ s.reg 1 = 0) ∧
    (∃ s : State, Usable s 14 ∧ s.cfg.mulDivSigned = true ∧ s.reg 14 = 0x8000 ∧ s.reg 1 = 0xFFFF) :=
  ⟨⟨State.reset, fun _ => rfl, fun _ => rfl, rfl⟩,
    { vec [(14, 0x8000), (1, 0xFFFF)] 0 [] 0 with cfg := { defaultParams with mulDivSigned := true } },
    fun _ => rfl, rfl, rfl, rfl⟩

/-- Both counts at the ends, the old carry 0 and 1. -/
theorem witness_ShiftResult :
    Usable State.reset 15 ∧ (0 : BitVec 3).toNat = 0 ∧ (7 : BitVec 3).toNat = 7 ∧
    pswC State.reset.psw = false ∧ pswC (vec [] 0x0008 [] 0).psw = true :=
  ⟨fun _ => rfl, rfl, rfl, rfl, rfl⟩

theorem witness_CarryAndArithmeticShiftResult :
    (Usable State.reset 13 ∧ ∃ x : Word, x.toInt = (0x8001 : Word).toInt / 2 ^ 7) ∧
    (Usable State.reset 15 ∧ (0x8001 : Word).toInt = (0x8001 : Word).toInt / 2 ^ 0) :=
  ⟨⟨fun _ => rfl, 0xFF00, by decide⟩, fun _ => rfl, by decide⟩

theorem witness_RotateResult :
    Usable State.reset 13 ∧ State.reset.cfg.shiftNumerics = ⟨.printed, .lastOut, .carryKept, false, false⟩ ∧
    pswC State.reset.psw = false :=
  ⟨fun _ => rfl, rfl, rfl⟩

theorem witness_SingleOperandResult : Usable State.reset 15 ∧ Usable inSlot 14 :=
  ⟨fun _ => rfl, fun h => by cases h⟩

theorem witness_ConditionalJumpResult :
    (State.reset.pc = 0xFFFF + 1 ∧ State.reset.dly = none ∧ (!State.reset.psw.getLsbD 1) = true) ∧
    (inSlot.pc = 0x01FF + 1 ∧ inSlot.dly ≠ none ∧ (!inSlot.psw.getLsbD 1) = true) ∧
    State.reset.psw.getLsbD 1 = false := by decide

theorem witness_FarJumpResult :
    ((14 : RegNum).getLsbD 0 = false ∧ State.reset.dly = none) ∧ (15 : RegNum).getLsbD 0 = true ∧
    inSlot.dly ≠ none := by decide

/-- Bit 5 written with the value it has, bit 5 written with the other, bit 15 and bit 16. -/
theorem witness_PswBitResult :
    ((0 : BitVec 4).toNat < 16 ∧ State.reset.psw.getLsbD 5 = false ∧ inHandler.psw.getLsbD 5 = true) ∧
    ((11 : BitVec 4).toNat + 4 = 15 ∧ (12 : BitVec 4).toNat + 4 = 16) := by decide

end Sys2Proof.Tests
end

section
/-! ## The state's operations: what interrupt entry, return and the end of a slot leave

Rules the proofs of the state's statements (10_state.md) share. -/

namespace Sys2Proof.Machine

/-! ### Interrupt entry, return, and the completion of a transfer -/

theorem State.inactive_of_normal {s : State} (h : s.view = .normal) : s.inactive = s.shadow := by
  simp [State.inactive, h]

theorem State.inactive_of_shadow {s : State} (h : s.view = .shadow) : s.inactive = s.normal := by
  simp [State.inactive, h]

@[simp] theorem interruptEntry_view (v : EntryVector) (s : State) : (interruptEntry v s).view = .shadow := rfl
@[simp] theorem interruptEntry_recent (v : EntryVector) (s : State) : (interruptEntry v s).recent = [] := rfl
@[simp] theorem interruptEntry_stored (v : EntryVector) (s : State) : (interruptEntry v s).stored = [] := rfl
@[simp] theorem interruptEntry_shadow_psw (v : EntryVector) (s : State) :
    (interruptEntry v s).shadow.psw = entryPsw s.psw := rfl

/-- Interrupt entry writes no part of the normal bank (60_exceptions.md R326). -/
@[simp] theorem interruptEntry_normal (v : EntryVector) (s : State) : (interruptEntry v s).normal = s.normal := by
  rw [interruptEntry_eq]
  rcases loadWord_state (vectorAddr v) s with h | h | ⟨ws, h⟩ <;> rw [h] <;> rfl

/-- Interrupt entry writes none of R0 to R14. -/
@[simp] theorem interruptEntry_regs (v : EntryVector) (s : State) : (interruptEntry v s).regs = s.regs := by
  rw [interruptEntry_eq]
  rcases loadWord_state (vectorAddr v) s with h | h | ⟨ws, h⟩ <;> rw [h] <;> rfl

@[simp] theorem interruptReturn_view (s : State) : (interruptReturn s).view = .normal := rfl
@[simp] theorem interruptReturn_normal (s : State) : (interruptReturn s).normal = s.normal := rfl
@[simp] theorem interruptReturn_shadow (s : State) : (interruptReturn s).shadow = s.shadow := rfl
@[simp] theorem interruptReturn_regs (s : State) : (interruptReturn s).regs = s.regs := rfl
@[simp] theorem interruptReturn_recent (s : State) : (interruptReturn s).recent = [] := rfl
@[simp] theorem interruptReturn_stored (s : State) : (interruptReturn s).stored = [] := rfl

/-- Registers other than R15 are read from the general registers alone. -/
theorem reg_eq_of_regs {s t : State} (h : t.regs = s.regs) {r : RegNum} (hr : r ≠ 15) : t.reg r = s.reg r := by
  simp [State.reg, regNum_lt hr, h]

@[simp] theorem completeTransfer_pc (d : Transfer) (s : State) : (completeTransfer d s).pc = d.target := by
  unfold completeTransfer
  cases d.cs <;> simp

@[simp] theorem completeTransfer_cs (d : Transfer) (s : State) : (completeTransfer d s).cs = d.cs.getD s.cs := by
  unfold completeTransfer
  cases d.cs <;> simp

@[simp] theorem completeTransfer_dly (d : Transfer) (s : State) : (completeTransfer d s).dly = none := by
  unfold completeTransfer
  cases d.cs <;> rfl

@[simp] theorem completeTransfer_view (d : Transfer) (s : State) : (completeTransfer d s).view = s.view := by
  unfold completeTransfer
  cases d.cs <;> rfl

@[simp] theorem completeTransfer_inactive (d : Transfer) (s : State) :
    (completeTransfer d s).inactive = s.inactive := by
  unfold completeTransfer
  cases d.cs <;> simp

end Sys2Proof.Machine

namespace Sys2Proof.Safety

open Sys2Proof.Machine

/-! ### The S bits of the two banks

Every write of a bank goes through the active one, so it keeps the S bits of both banks when it keeps the S bit of
the bank it writes. -/

/-- The S bits of both banks and the view are as before. -/
structure SBitsKept (s t : State) : Prop where
  view : t.view = s.view
  normal : pswS t.normal.psw = pswS s.normal.psw
  shadow : pswS t.shadow.psw = pswS s.shadow.psw

theorem sBitsKept_of_banks {s t : State} (hv : t.view = s.view) (hn : t.normal = s.normal)
    (hs : t.shadow = s.shadow) : SBitsKept s t := ⟨hv, by rw [hn], by rw [hs]⟩

theorem sBitsKept_setActive {s : State} {b : Bank} (h : pswS b.psw = pswS s.psw) : SBitsKept s (s.setActive b) := by
  unfold State.psw State.active at h
  cases hv : s.view <;> rw [hv] at h <;> constructor <;> simp [State.setActive, hv, h]

theorem ViewBits.of_kept {s t : State} (h : ViewBits s) (hk : SBitsKept s t) : ViewBits t := by
  unfold ViewBits
  rw [hk.normal, hk.view, hk.shadow]
  exact h

/-- The update of an instruction writes no S bit and does not switch the view (10_state.md R32). -/
theorem update_sBitsKept {s t : State} (h : Update s t) : SBitsKept s t := by
  cases h
  case setPsw p hp => exact sBitsKept_setActive hp
  all_goals exact sBitsKept_of_banks rfl rfl rfl

/-! ### A step as a chain -/

/-- The single updates of a step other than reset: those of an instruction, and those of the sequencing around it
(10_state.md R26, 60_exceptions.md R326, 47_system.md R274). -/
inductive StepUpdate : State → State → Prop
  | instruction {s t : State} (h : Update s t) : StepUpdate s t
  | sample (s : State) : StepUpdate s s.nextBoundary
  | age (s : State) : StepUpdate s (ageWindows s)
  | setPc (s : State) (v : Word) : StepUpdate s (s.setPc v)
  | setCs (s : State) (v : Word) : StepUpdate s (s.setCs v)
  | clearDly (s : State) : StepUpdate s (s.setDly none)
  | enter (v : EntryVector) (s : State) : StepUpdate s (interruptEntry v s)
  | leave (s : State) : StepUpdate s (interruptReturn s)

/-- A chain of updates of a step. -/
abbrev StepUpdates : State → State → Prop := Relation.ReflTransGen StepUpdate

theorem updates_stepUpdates {s t : State} (h : Updates s t) : StepUpdates s t := by
  induction h with
  | refl => exact .refl
  | tail _ hu ih => exact ih.tail (.instruction hu)

theorem exec_stepUpdates {i : Instr} {s t : State} (h : exec i s = .next t) : StepUpdates s t := by
  rcases exec_cases h with hu | ⟨-, -, rfl⟩ | ⟨-, -, rfl⟩
  · exact updates_stepUpdates hu
  · exact .single (.enter .swi s)
  · exact .single (.leave s)

theorem completeTransfer_stepUpdates (d : Transfer) (s : State) : StepUpdates s (completeTransfer d s) := by
  have hpc : StepUpdates s (s.setPc d.target) := .single (.setPc s _)
  unfold completeTransfer
  cases d.cs with
  | none => exact hpc.tail (.clearDly _)
  | some c => exact (hpc.tail (.setCs _ c)).tail (.clearDly _)

/-- The fetch of an instruction, up to the state it executes in. -/
theorem fetchNext_stepUpdates {s : State} {w : Option Word} {u : State} (h : fetchNext s = (w, u)) :
    StepUpdates s (advancePc u) :=
  ((Relation.ReflTransGen.single (.age s)).trans (updates_stepUpdates (fetch_updates h))).tail (.setPc u _)

/-- A step without reset is a chain of updates. -/
theorem step_stepUpdates {s t : State} (hr : NoReset s) (h : step s = .next t) : StepUpdates s t := by
  have hsample : StepUpdates s s.nextBoundary := .single (.sample s)
  rcases step_cases h with ⟨hreset, -⟩ | ⟨-, -, rfl⟩ | ⟨-, -, -, rfl⟩ |
    ⟨-, -, w, i, u, m, hfetch, -, hexec, hend⟩
  · exact absurd (hr.symm.trans hreset) (by decide)
  · exact hsample
  · exact hsample.tail (.enter .hardware _)
  · have hm : StepUpdates s m := (hsample.trans (fetchNext_stepUpdates hfetch)).trans (exec_stepUpdates hexec)
    rcases hend with ⟨-, rfl⟩ | ⟨d, -, rfl⟩
    · exact hm
    · exact hm.trans (completeTransfer_stepUpdates d m)

/-- A property every update keeps is kept by every step without reset. -/
theorem step_keeps_of_noReset {P : State → Prop} (hP : ∀ s t, StepUpdate s t → P s → P t) {s t : State}
    (hr : NoReset s) (h : step s = .next t) (hs : P s) : P t := by
  have hchain := step_stepUpdates hr h
  clear h
  induction hchain with
  | refl => exact hs
  | tail _ hu ih => exact hP _ _ hu ih

/-- A property every update keeps, and reset establishes, is kept by every step. -/
theorem step_keeps {P : State → Prop} (hP : ∀ s t, StepUpdate s t → P s → P t) (hreset : ∀ s, P (resetEvent s))
    {s t : State} (h : step s = .next t) (hs : P s) : P t := by
  cases hr : s.boundary.reset with
  | false => exact step_keeps_of_noReset hP hr h hs
  | true =>
    obtain ⟨-, rfl⟩ : _ ∧ t = resetEvent s.nextBoundary := by
      rcases step_cases h with hc | ⟨hf, -⟩ | ⟨hf, -⟩ | ⟨hf, -⟩
      · exact hc
      all_goals exact absurd (hr.symm.trans hf) (by decide)
    exact hreset _

/-! ### What each update does to the S bits and to the windows -/

/-- Every update but interrupt entry and return keeps the S bits (10_state.md R32). -/
theorem stepUpdate_sBits {s t : State} (h : StepUpdate s t) :
    SBitsKept s t ∨ (∃ v, t = interruptEntry v s) ∨ t = interruptReturn s := by
  cases h with
  | instruction h => exact .inl (update_sBitsKept h)
  | setPc v => exact .inl (sBitsKept_setActive rfl)
  | setCs v => exact .inl (sBitsKept_setActive rfl)
  | sample | age | clearDly => exact .inl (sBitsKept_of_banks rfl rfl rfl)
  | enter v => exact .inr (.inl ⟨v, rfl⟩)
  | leave => exact .inr (.inr rfl)

theorem pswS_entryPsw (p : Word) : pswS (entryPsw p) = true := getLsbD_entryPsw p 5

theorem stepUpdate_viewBits {s t : State} (h : StepUpdate s t) (hs : ViewBits s) : ViewBits t := by
  rcases stepUpdate_sBits h with hk | ⟨v, rfl⟩ | rfl
  · exact hs.of_kept hk
  · exact ⟨by simpa using hs.1, fun _ => by simp [pswS_entryPsw]⟩
  · exact ⟨by simpa using hs.1, fun hv => by simp at hv⟩

theorem stepUpdate_shadow_pswS {s t : State} (h : StepUpdate s t) (hs : pswS s.shadow.psw = true) :
    pswS t.shadow.psw = true := by
  rcases stepUpdate_sBits h with hk | ⟨v, rfl⟩ | rfl
  · rw [hk.shadow, hs]
  · simp [pswS_entryPsw]
  · simpa using hs

theorem WindowsBounded.of_empty {s : State} (hr : s.recent = []) (hs : s.stored = []) : WindowsBounded s := by
  simp [WindowsBounded, hr, hs]

theorem WindowsBounded.of_same {s t : State} (h : WindowsBounded s) (hr : t.recent = s.recent)
    (hs : t.stored = s.stored) (hc : t.cfg = s.cfg) : WindowsBounded t := by
  unfold WindowsBounded
  rw [hr, hs, hc]
  exact h

theorem WindowsBounded.setReg {s : State} (h : WindowsBounded s) {r : RegNum} (hr : r ≠ 15) (v : Word) :
    WindowsBounded (s.setReg r v) := by
  refine ⟨?_, h.2⟩
  rw [State.setReg_recent _ _ hr]
  exact List.forall_mem_cons.2 ⟨⟨hr, Nat.zero_le _⟩, h.1⟩

theorem WindowsBounded.storeMem {s : State} (h : WindowsBounded s) {a : PhysAddr} (ha : a.toNat < 0xE0000)
    (v : Word) : WindowsBounded (s.storeMem a v) :=
  ⟨h.1, List.forall_mem_cons.2 ⟨⟨ha, Nat.zero_le _⟩, h.2⟩⟩

/-- Ageing keeps only entries within the windows (40_data_movement.md R135, 20_memory.md R78). -/
theorem WindowsBounded.ageWindows {s : State} (h : WindowsBounded s) : WindowsBounded (ageWindows s) := by
  obtain ⟨hrecent, hstored⟩ := h
  refine ⟨fun e he => ?_, fun e he => ?_⟩
  · obtain ⟨hmem, hage⟩ := List.mem_filter.1 he
    obtain ⟨e₀, he₀, rfl⟩ := List.mem_map.1 hmem
    exact ⟨(hrecent e₀ he₀).1, of_decide_eq_true hage⟩
  · obtain ⟨hmem, hage⟩ := List.mem_filter.1 he
    obtain ⟨e₀, he₀, rfl⟩ := List.mem_map.1 hmem
    exact ⟨(hstored e₀ he₀).1, of_decide_eq_true hage⟩

theorem update_windowsBounded {s t : State} (h : Update s t) (hs : WindowsBounded s) : WindowsBounded t := by
  cases h
  case setReg r v hr => exact hs.setReg hr v
  case storeMem a v ha => exact hs.storeMem ha v
  case flush => exact .of_empty rfl rfl
  all_goals exact hs.of_same rfl rfl rfl

theorem stepUpdate_windowsBounded {s t : State} (h : StepUpdate s t) (hs : WindowsBounded s) : WindowsBounded t := by
  cases h with
  | instruction h => exact update_windowsBounded h hs
  | age => exact hs.ageWindows
  | enter | leave => exact .of_empty (by simp) (by simp)
  | sample | setPc | setCs | clearDly => exact hs.of_same rfl rfl rfl

end Sys2Proof.Safety
end

section
/-! ## The invariants of the state (10_state.md R31, R32, R34, R35) -/

namespace Sys2Proof.Proofs

open Sys2Proof.Machine Sys2Proof.Safety

theorem reset_viewBits : ViewBits State.reset := ⟨rfl, fun h => nomatch h⟩

theorem resetEvent_viewBits (s : State) : ViewBits (resetEvent s) :=
  reset_viewBits.of_kept (sBitsKept_of_banks rfl rfl rfl)

/-- Settles O14: no single update of a step breaks the agreement of the S bits with the view. -/
theorem viewBitsKept : Obligations.ViewBitsKept := by
  unfold Obligations.ViewBitsKept
  exact ⟨fun s t hs h => step_keeps (fun _ _ => stepUpdate_viewBits) resetEvent_viewBits h hs,
    fun s t hr hs h => step_keeps_of_noReset (P := fun s => pswS s.shadow.psw = true)
      (fun _ _ => stepUpdate_shadow_pswS) hr h hs⟩

/-- Settles O17: no single update of a step leaves an entry outside the windows. -/
theorem windowsBoundedKept : Obligations.WindowsBoundedKept := by
  unfold Obligations.WindowsBoundedKept
  exact fun s t hs h => step_keeps (fun _ _ => stepUpdate_windowsBounded) (fun _ => .of_empty rfl rfl) h hs

/-- Settles O18: nothing is listed in memory or in the windows after reset, and the view is normal. -/
theorem resetMeetsInvariants : Obligations.ResetMeetsInvariants where
  memory := reset_mem_wf
  view := reset_viewBits
  rom := fun _ _ => rfl
  windows := .of_empty rfl rfl

/-- Settles O20: the values State.reset and the boot ROM list, read off. -/
theorem resetValues : Obligations.ResetValues := by
  unfold Obligations.ResetValues
  decide

end Sys2Proof.Proofs
end

section
/-! ## Delay slot, inactive bank and fetch (10_state.md R24 to R26, R31, R33) -/

namespace Sys2Proof.Proofs

open Sys2Proof.Machine Sys2Proof.Safety

/-! ### The step in a delay slot -/

/-- In a delay slot no instruction that completes switches the view: SWI and RETI are refused there
(45_control_flow.md R243). -/
theorem exec_updates_of_inSlot {i : Instr} {s t : State} (hd : s.dly ≠ none) (h : exec i s = .next t) :
    Updates s t := by
  rcases exec_cases h with hu | ⟨-, hn, -⟩ | ⟨-, hn, -⟩
  · exact hu
  · exact absurd hn hd
  · exact absurd hn hd

/-- Settles O6: the slot's instruction is a chain of updates that keep CS, the view and the inactive bank, and the
transfer completes after it. -/
theorem delaySlotCompletesTransfer : Obligations.DelaySlotCompletesTransfer := by
  unfold Obligations.DelaySlotCompletesTransfer
  intro s t d hr hh hd h
  rcases step_cases h with ⟨hreset, -⟩ | ⟨-, hhalt, -⟩ | ⟨-, -, hnone, -⟩ | ⟨-, -, w, i, u, m, hfetch, -, hexec, hend⟩
  · exact absurd (hr.symm.trans hreset) (by decide)
  · exact absurd (hh.symm.trans hhalt) (by decide)
  · exact absurd (hd.symm.trans hnone) (by simp)
  · obtain ⟨-, hcs, hview, hinactive, -, -, -, hdly⟩ := fetch_advance hfetch
    have hslot : (advancePc u).dly ≠ none := by rw [hdly, hd]; simp
    obtain ⟨-, hcs', hview', hinactive', -⟩ := updates_core (exec_updates_of_inSlot hslot hexec)
    rcases hend with ⟨hnone, -⟩ | ⟨d', hd', rfl⟩
    · exact absurd (hd.symm.trans hnone) (by simp)
    · obtain rfl : d = d' := Option.some.inj (hd.symm.trans hd')
      simp [hcs', hcs, hview', hview, hinactive', hinactive]

/-! ### The inactive bank -/

/-- Interrupt entry that keeps the view was taken in the shadow view, whose inactive bank is the normal one. -/
theorem interruptEntry_inactive {v : EntryVector} {s : State} (h : (interruptEntry v s).view = s.view) :
    (interruptEntry v s).inactive = s.inactive := by
  have hs : s.view = .shadow := h.symm
  rw [State.inactive_of_shadow hs, State.inactive_of_shadow rfl, interruptEntry_normal]

/-- A return that keeps the view was made in the normal view, whose inactive bank is the shadow one. -/
theorem interruptReturn_inactive {s : State} (h : (interruptReturn s).view = s.view) :
    (interruptReturn s).inactive = s.inactive := by
  have hs : s.view = .normal := h.symm
  rw [State.inactive_of_normal hs, State.inactive_of_normal rfl, interruptReturn_shadow]

/-- An instruction that keeps the view keeps the inactive bank (10_state.md R33). -/
theorem exec_inactive {i : Instr} {s t : State} (h : exec i s = .next t) (hv : t.view = s.view) :
    t.inactive = s.inactive := by
  rcases exec_cases h with hu | ⟨-, -, rfl⟩ | ⟨-, -, rfl⟩
  · obtain ⟨-, -, -, hinactive, -⟩ := updates_core hu
    exact hinactive
  · exact interruptEntry_inactive hv
  · exact interruptReturn_inactive hv

/-- Settles O13, by the ways a step without reset can end. -/
theorem inactiveBankKept : Obligations.InactiveBankKept := by
  unfold Obligations.InactiveBankKept
  intro s t hr h hv
  rcases step_cases h with ⟨hreset, -⟩ | ⟨-, -, rfl⟩ | ⟨-, -, -, rfl⟩ | ⟨-, -, w, i, u, m, hfetch, -, hexec, hend⟩
  · exact absurd (hr.symm.trans hreset) (by decide)
  · rfl
  · exact interruptEntry_inactive hv
  · obtain ⟨-, -, hview, hinactive, -⟩ := fetch_advance hfetch
    have hm : m.view = s.view → m.inactive = s.inactive := fun e =>
      (exec_inactive hexec (e.trans hview.symm)).trans hinactive
    rcases hend with ⟨-, rfl⟩ | ⟨d, -, rfl⟩
    · exact hm hv
    · rw [completeTransfer_inactive]
      exact hm (by simpa using hv)

/-! ### The instruction a step runs -/

theorem step_of_runsInstruction {s : State} (h : RunsInstruction s) : step s = runInstruction s.nextBoundary := by
  obtain ⟨hr, hh, hi⟩ := h
  have ha : acceptsInterrupt s = false := by
    rw [← Bool.not_eq_true]
    simpa [acceptsInterrupt, and_assoc] using hi
  simp [step, boundaryStep, hr, hh, ha]

theorem runInstruction_of_fetchNext {s u : State} {w : Word} {i : Instr} (hf : fetchNext s = (some w, u))
    (hd : decode w = .ok i) : runInstruction s = finishSlot s.dly (exec i (advancePc u)) := by
  simp [runInstruction, hf, hd]

theorem finishSlot_eq_afterSlot (d : Option Transfer) (o : Result) : finishSlot d o = AfterSlot d o := by
  rcases d with - | ⟨- | c, t⟩ <;> cases o <;> rfl

/-- The state an instruction executes in when its fetch consumed no input. -/
theorem advancePc_ageWindows (s : State) : advancePc (ageWindows s.nextBoundary) = readied s := rfl

/-- The state an instruction executes in when its fetch consumed a platform answer. -/
theorem advancePc_setPlatformIn (s : State) (ws : List Word) :
    advancePc ((ageWindows s.nextBoundary).setPlatformIn ws) = { readied s with platformIn := ws } := rfl

/-- With no store to `a` left in the fetch window there is no earlier word to choose (20_memory.md R78). -/
theorem ageWindows_stored_filter {s : State} {a : PhysAddr}
    (h : ∀ e ∈ s.stored, e.addr = a → s.cfg.fetchWindow ≤ e.age) :
    (ageWindows s).stored.filter (·.addr = a) = [] := by
  refine List.filter_eq_nil_iff.2 fun e he => ?_
  obtain ⟨hmem, hage⟩ := List.mem_filter.1 he
  obtain ⟨e₀, he₀, rfl⟩ := List.mem_map.1 hmem
  have hage : e₀.age + 1 ≤ s.cfg.fetchWindow := of_decide_eq_true hage
  have hne : e₀.addr ≠ a := fun e => absurd (h e₀ he₀ e) (by omega)
  simpa using hne

/-- A fetch from memory outside the fetch window reads the word there. -/
theorem fetchNext_of_memory {s : State} (hp : ¬IsPlatform (phys s.cs s.pc))
    (hw : ∀ e ∈ s.stored, e.addr = phys s.cs s.pc → s.cfg.fetchWindow ≤ e.age) :
    fetchNext s = (readWord s.mem (phys s.cs s.pc), ageWindows s) := by
  have hp' : isPlatform (phys s.cs s.pc) ≠ true := fun e => hp ((isPlatform_iff _).1 e)
  simp [fetchNext, fetchWord, hp', ageWindows_stored_filter hw]

/-- A fetch from a platform address takes the platform's next answer (20_memory.md R71). -/
theorem fetchNext_of_platform {s : State} {w : Word} {ws : List Word} (hp : IsPlatform (phys s.cs s.pc))
    (hw : s.platformIn = w :: ws) : fetchNext s = (some w, (ageWindows s).setPlatformIn ws) := by
  simp [fetchNext, fetchWord, (isPlatform_iff _).2 hp, platformRead, hw]

/-- Settles O5, by the three ways the fetch can go. -/
theorem stepRunsDecodedInstruction : Obligations.StepRunsDecodedInstruction := by
  unfold Obligations.StepRunsDecodedInstruction
  refine ⟨fun s w i hrun hfetch hdec => ?_, fun s w ws i hrun hp hans hdec => ?_, fun s hrun hp hwin hnone => ?_⟩
  · obtain ⟨hp, hwin, hword⟩ := hfetch
    have hf : fetchNext s.nextBoundary = (some w, ageWindows s.nextBoundary) := by
      rw [← hword]
      exact fetchNext_of_memory (s := s.nextBoundary) hp hwin
    rw [step_of_runsInstruction hrun, runInstruction_of_fetchNext hf hdec, finishSlot_eq_afterSlot,
      advancePc_ageWindows, State.nextBoundary_dly]
  · have hf := fetchNext_of_platform (s := s.nextBoundary) hp hans
    rw [step_of_runsInstruction hrun, runInstruction_of_fetchNext hf hdec, finishSlot_eq_afterSlot,
      advancePc_setPlatformIn, State.nextBoundary_dly]
  · have hf : fetchNext s.nextBoundary = (none, ageWindows s.nextBoundary) := by
      rw [← hnone]
      exact fetchNext_of_memory (s := s.nextBoundary) hp hwin
    rw [step_of_runsInstruction hrun]
    simp [runInstruction, hf]

end Sys2Proof.Proofs
end

section
/-! ## What an instruction writes: registers, PSW bits and segments (10_state.md R20, R23, R27, R30) -/

namespace Sys2Proof.Safety

open Sys2Proof.Machine

/-- Of the registers R0 to R14 at most those of `rs` are written, of the active PSW at most the bits `bits`, and no
segment register but the view's CS. -/
structure Confined (rs : List RegNum) (bits : List Nat) (s t : State) : Prop where
  reg : ∀ r, r ≠ 15 → r ∉ rs → t.reg r = s.reg r
  psw : ∀ j, j ∉ bits → t.psw.getLsbD j = s.psw.getLsbD j
  ds : t.ds = s.ds
  ss : t.ss = s.ss
  es : t.es = s.es

variable {rs : List RegNum} {bits : List Nat} {s m t : State}

/-! ### The single updates -/

theorem Confined.refl (s : State) : Confined rs bits s s := ⟨fun _ _ _ => rfl, fun _ _ => rfl, rfl, rfl, rfl⟩

theorem Confined.trans (h : Confined rs bits s m) (h' : Confined rs bits m t) : Confined rs bits s t :=
  ⟨fun r h15 hr => (h'.reg r h15 hr).trans (h.reg r h15 hr), fun j hj => (h'.psw j hj).trans (h.psw j hj),
    h'.ds.trans h.ds, h'.ss.trans h.ss, h'.es.trans h.es⟩

theorem confined_setReg (s : State) {r : RegNum} (hr : r ∈ rs) (v : Word) : Confined rs bits s (s.setReg r v) :=
  ⟨fun _ _ h => s.setReg_reg_of_ne v fun e => h (e ▸ hr), fun _ _ => rfl, rfl, rfl, rfl⟩

theorem confined_setPsw {p : Word} (hp : ∀ j, j ∉ bits → p.getLsbD j = s.psw.getLsbD j) :
    Confined rs bits s (s.setPsw p) :=
  ⟨fun r _ _ => s.setPsw_reg p r, by simpa using hp, rfl, rfl, rfl⟩

theorem confined_setDly (s : State) (d : Option Transfer) : Confined rs bits s (s.setDly d) :=
  ⟨fun _ _ _ => rfl, fun _ _ => rfl, rfl, rfl, rfl⟩

theorem confined_setDraws (s : State) (n : Nat) : Confined rs bits s (s.setDraws n) :=
  ⟨fun _ _ _ => rfl, fun _ _ => rfl, rfl, rfl, rfl⟩

theorem confined_setPlatformIn (s : State) (ws : List Word) : Confined rs bits s (s.setPlatformIn ws) :=
  ⟨fun _ _ _ => rfl, fun _ _ => rfl, rfl, rfl, rfl⟩

theorem confined_platformWrite (s : State) (a : PhysAddr) (v : Word) : Confined rs bits s (s.platformWrite a v) :=
  ⟨fun _ _ _ => rfl, fun _ _ => rfl, rfl, rfl, rfl⟩

theorem confined_storeMem (s : State) (a : PhysAddr) (v : Word) : Confined rs bits s (s.storeMem a v) :=
  ⟨fun _ _ _ => rfl, fun _ _ => rfl, rfl, rfl, rfl⟩

theorem confined_flush (s : State) : Confined rs bits s (flush s) :=
  ⟨fun _ _ _ => rfl, fun _ _ => rfl, rfl, rfl, rfl⟩

theorem confined_halt (s : State) : Confined rs bits s s.halt :=
  ⟨fun _ _ _ => rfl, fun _ _ => rfl, rfl, rfl, rfl⟩

/-! ### The flags each ALU function writes (41_alu.md R152), and C of the rotates (42_shift.md R182) -/

/-- An ALU function writes at most the PSW bits `bits`. -/
def FlagsWithin (bits : List Nat) (f : Params → Word → Word → Word → AluOut) : Prop :=
  ∀ cfg p a b j, j ∉ bits → (f cfg p a b).psw.getLsbD j = p.getLsbD j

/-- A PSW with N and Z written agrees with the one before on every other bit. -/
theorem getLsbD_pswSetNZ_of_notMem (p r : Word) {j : Nat} (hj : j ∉ [0, 1]) :
    (pswSetNZ p r).getLsbD j = p.getLsbD j := by
  simp only [List.mem_cons, List.not_mem_nil, or_false, not_or] at hj
  rw [getLsbD_pswSetNZ, if_neg hj.2, if_neg hj.1]

/-- A PSW with the four flags written agrees with the one before on every other bit. -/
theorem getLsbD_pswSetNZVC_of_notMem (p r : Word) (v c : Bool) {j : Nat} (hj : j ∉ [0, 1, 2, 3]) :
    (pswSet (pswSet (pswSetNZ p r) 2 v) 3 c).getLsbD j = p.getLsbD j := by
  simp only [List.mem_cons, List.not_mem_nil, or_false, not_or] at hj
  obtain ⟨h0, h1, h2, h3⟩ := hj
  rw [getLsbD_pswSetNZVC, if_neg h3, if_neg h2, if_neg h1, if_neg h0]

theorem flagsWithin_addOut : FlagsWithin [0, 1, 2, 3] addOut := fun _ _ _ _ _ => getLsbD_pswSetNZVC_of_notMem _ _ _ _

theorem flagsWithin_subOut : FlagsWithin [0, 1, 2, 3] subOut := fun _ _ _ _ _ => getLsbD_pswSetNZVC_of_notMem _ _ _ _

theorem flagsWithin_andOut : FlagsWithin [0, 1] andOut := fun _ _ _ _ _ => getLsbD_pswSetNZ_of_notMem _ _

theorem flagsWithin_orOut : FlagsWithin [0, 1] orOut := fun _ _ _ _ _ => getLsbD_pswSetNZ_of_notMem _ _

theorem flagsWithin_xorOut : FlagsWithin [0, 1] xorOut := fun _ _ _ _ _ => getLsbD_pswSetNZ_of_notMem _ _

theorem flagsWithin_mulOut : FlagsWithin [0, 1] mulOut := fun _ _ _ _ _ => getLsbD_pswSetNZ_of_notMem _ _

/-- Where ROR and ROC may not write C they write none (42_shift.md R182, log 11). -/
theorem rotateCarry_eq_none {cfg : Params} {a : Word} {n : Nat}
    (h : 3 ∉ (if cfg.shiftNumerics.rotateCarry then [0, 1, 3] else [0, 1] : List Nat)) :
    rotateCarry cfg a n = none := by
  unfold rotateCarry
  cases hc : cfg.shiftNumerics.rotateCarry
  · rfl
  · simp [hc] at h

theorem rotate_writes_nz (cfg : Params) : ∀ j ∈ [0, 1],
    j ∈ (if cfg.shiftNumerics.rotateCarry then [0, 1, 3] else [0, 1] : List Nat) := by
  cases cfg.shiftNumerics.rotateCarry <;> decide

/-! ### The shared operations -/

theorem transfer_confined {c : Option Word} {v : Word} (h : transfer c v s = .next t) : Confined rs bits s t := by
  obtain ⟨-, rfl⟩ := transfer_eq_next.1 h
  exact confined_setDly s _

theorem writeReg_confined {r : RegNum} {v : Word} (hr : r ∈ rs) (h : writeReg r v s = .next t) :
    Confined rs bits s t := by
  rcases writeReg_eq_next.1 h with ⟨-, rfl⟩ | ⟨-, -, rfl⟩
  · exact confined_setReg s hr v
  · exact confined_setDly s _

theorem writePair_confined {r : RegNum} {lo hi : Word} (hr : r ∈ rs) (hr' : r + 1 ∈ rs)
    (h : writePair r lo hi s = .next t) : Confined rs bits s t := by
  unfold writePair at h
  split at h
  · rename_i m hm
    exact (writeReg_confined hr hm).trans (writeReg_confined hr' h)
  · cases h
  · cases h

theorem loadWord_confined (a : PhysAddr) (s : State) : Confined rs bits s (loadWord a s).2 := by
  rcases loadWord_state a s with h | h | ⟨ws, h⟩ <;> rw [h]
  · exact .refl s
  · exact confined_setDraws s _
  · exact confined_setPlatformIn s ws

theorem loadInto_confined {rd : RegNum} {a : PhysAddr} (hr : rd ∈ rs) (h : loadInto rd a s = .next t) :
    Confined rs bits s t := (loadWord_confined a s).trans (writeReg_confined hr h)

theorem storeFrom_confined {rd : RegNum} {a : PhysAddr} (h : storeFrom rd a s = .next t) : Confined rs bits s t := by
  rcases storeWord_eq_next.1 (readReg_eq_next.1 h).2 with ⟨-, ⟨-, rfl⟩ | ⟨-, rfl⟩⟩
  · exact confined_platformWrite s a _
  · exact confined_storeMem s a _

theorem archRead_confined (r : RegNum) (s : State) : Confined rs bits s (archRead r s).2 := by
  unfold archRead
  rw [chooseOld_state]
  exact confined_setDraws s _

theorem single_confined {f : Word → Word} {rx : RegNum} (hr : rx ∈ rs) (h : single f rx s = .next t) :
    Confined rs bits s t := writeReg_confined hr (readReg_eq_next.1 h).2

theorem jumpIf_confined {c : Bool} {target : BitVec 9} (h : jumpIf c target s = .next t) : Confined rs bits s t := by
  cases c
  · obtain rfl := by simpa [jumpIf] using h
    exact .refl _
  · exact transfer_confined h

/-- An ALU2 operation that completes is its write, for the operands it read (41_alu.md R150). -/
theorem alu2_eq_next {f : Params → Word → Word → Word → AluOut} {w : Bool} {rd : RegNum} {x : Src}
    (h : alu2 f w rd x s = .next t) :
    ∃ a b, (if w then writeReg rd (f s.cfg s.psw a b).value (s.setPsw (f s.cfg s.psw a b).psw)
      else .next (s.setPsw (f s.cfg s.psw a b).psw)) = .next t := by
  rcases readSrc_eq_next.1 (readReg_eq_next.1 h).2 with ⟨_, -, -, hw⟩ | ⟨_, -, hw⟩
  · exact ⟨_, _, hw⟩
  · exact ⟨_, _, hw⟩

/-- An ALU2 operation writes the PSW bits its flag function writes, and Rd when w = 1 (41_alu.md R150). -/
theorem alu2_confined {f : Params → Word → Word → Word → AluOut} {w : Bool} {rd : RegNum} {x : Src}
    (h : alu2 f w rd x s = .next t) (hf : FlagsWithin bits f) (hr : w = true → rd ∈ rs) : Confined rs bits s t := by
  have hpsw : ∀ a b, Confined rs bits s (s.setPsw (f s.cfg s.psw a b).psw) := fun a b =>
    confined_setPsw (hf _ _ a b)
  obtain ⟨a, b, hab⟩ := alu2_eq_next h
  cases w
  · obtain rfl := by simpa using hab
    exact hpsw a b
  · exact (hpsw a b).trans (writeReg_confined (hr rfl) hab)

/-- A shift writes N and Z, and C where its carry is some (42_shift.md R182). -/
theorem shiftOp_confined {f : Params → Bool → Word → Nat → ShiftOut} {rd : RegNum} {n : BitVec 3}
    (h : shiftOp f rd n s = .next t) (h0 : 0 ∈ bits) (h1 : 1 ∈ bits)
    (hc : 3 ∉ bits → ∀ c a n, (f s.cfg c a n).carry = none) (hr : rd ∈ rs) : Confined rs bits s t := by
  refine (confined_setPsw fun j hj => ?_).trans (writeReg_confined hr (readReg_eq_next.1 h).2)
  have hj0 : j ≠ 0 := fun e => hj (e ▸ h0)
  have hj1 : j ≠ 1 := fun e => hj (e ▸ h1)
  by_cases h3 : j = 3
  · subst h3
    rw [getLsbD_pswShift, if_pos rfl, hc hj, Option.getD_none]
  · simp only [getLsbD_pswShift, hj0, hj1, h3, and_false, if_false]

theorem multiply32_confined {w : Bool} {rd r : RegNum} (h : multiply32 w rd r s = .next t) (h0 : 0 ∈ bits)
    (h1 : 1 ∈ bits) (hr : w = true → rd ∈ rs ∧ rd + 1 ∈ rs) : Confined rs bits s t := by
  have hpsw : ∀ p : BitVec 32, Confined rs bits s (s.setPsw (pswSetNZ32 s.psw p)) := by
    refine fun p => confined_setPsw fun j hj => ?_
    have hj0 : j ≠ 0 := fun e => hj (e ▸ h0)
    have hj1 : j ≠ 1 := fun e => hj (e ▸ h1)
    rw [getLsbD_pswSetNZ32, if_neg hj1, if_neg hj0]
  unfold multiply32 at h
  split at h
  · have h := (readReg_eq_next.1 (readReg_eq_next.1 h).2).2
    unfold multiplyInto at h
    cases w
    · obtain rfl := by simpa using h
      exact hpsw _
    · obtain ⟨hlo, hhi⟩ := hr rfl
      exact (hpsw _).trans (writePair_confined hlo hhi h)
  · cases h

/-- The values and the flags of a division, before its registers are written (41_alu.md R166, R167). -/
theorem divide_divFlags_confined (h0 : 0 ∈ bits) (h1 : 1 ∈ bits) (a b : Word) (o : DivOut) (s : State) :
    Confined rs bits s (divFlags o (divide a b s).2) := by
  rw [divide_state]
  refine (confined_setDraws s _).trans (confined_setPsw fun j hj => ?_)
  have hj0 : j ≠ 0 := fun e => hj (e ▸ h0)
  have hj1 : j ≠ 1 := fun e => hj (e ▸ h1)
  rw [getLsbD_pswSet_ne _ _ (by omega) hj1, getLsbD_pswSet_ne _ _ (by omega) hj0]

theorem divide16_confined {w : Bool} {rd r : RegNum} (h : divide16 w rd r s = .next t) (h0 : 0 ∈ bits)
    (h1 : 1 ∈ bits) (hr : w = true → rd ∈ rs) : Confined rs bits s t := by
  have h := (readReg_eq_next.1 (readReg_eq_next.1 h).2).2
  refine (divide_divFlags_confined h0 h1 (s.reg rd) (s.reg r) (divide (s.reg rd) (s.reg r) s).1 s).trans ?_
  cases w
  · obtain rfl := by simpa using h
    exact .refl _
  · exact writeReg_confined (hr rfl) h

theorem divide32_confined {w : Bool} {rd r : RegNum} (h : divide32 w rd r s = .next t) (h0 : 0 ∈ bits)
    (h1 : 1 ∈ bits) (hr : w = true → rd ∈ rs ∧ rd + 1 ∈ rs) : Confined rs bits s t := by
  unfold divide32 at h
  split at h
  · have h := (readReg_eq_next.1 (readReg_eq_next.1 h).2).2
    refine (divide_divFlags_confined h0 h1 (s.reg rd) (s.reg r) (divide (s.reg rd) (s.reg r) s).1 s).trans ?_
    cases w
    · obtain rfl := by simpa using h
      exact .refl _
    · obtain ⟨hlo, hhi⟩ := hr rfl
      exact writePair_confined hlo hhi h
  · cases h

/-- A selector write confines itself to the five bits from `lo` (46_psw_ops.md R250). -/
theorem getLsbD_pswSelect_of_notMem (p : Word) {lo j : Nat} (r : RegNum) (dual : Bool) (hlo : lo + 4 < 16)
    (hj : j ∉ [lo, lo + 1, lo + 2, lo + 3, lo + 4]) : (pswSelect p lo r dual).getLsbD j = p.getLsbD j := by
  simp only [List.mem_cons, List.not_mem_nil, or_false, not_or] at hj
  rw [getLsbD_pswSelect _ _ _ _ _ hlo, if_neg (by omega), if_neg (by omega)]

theorem selectStack_confined {rx : RegNum} {d : Bool} (h : selectStack rx d s = .next t) :
    Confined rs [6, 7, 8, 9, 10] s t := by
  obtain rfl := by simpa [selectStack] using h
  exact confined_setPsw fun _ => getLsbD_pswSelect_of_notMem _ rx d (by omega)

theorem selectExtra_confined {rx : RegNum} {d : Bool} (h : selectExtra rx d s = .next t) :
    Confined rs [11, 12, 13, 14, 15] s t := by
  obtain rfl := by simpa [selectExtra] using h
  exact confined_setPsw fun _ => getLsbD_pswSelect_of_notMem _ rx d (by omega)

theorem writePswBit_confined {i : Nat} {b : Bool} (h : writePswBit i b s = .next t) : Confined rs [i] s t := by
  obtain ⟨hi, -, rfl⟩ := writePswBit_eq_next.1 h
  exact confined_setPsw fun j hj => getLsbD_pswSet_ne _ b (by omega) (by simpa using hj)

/-! ### Every instruction -/

/-- Every instruction other than SWI, RETI and MVS Sx, Rd writes its destination registers and its PSW bits, and no
segment register (10_state.md R23, R27, R30). -/
theorem exec_confined {i : Instr} (h : exec i s = .next t) (hswi : i ≠ .swi) (hreti : i ≠ .reti)
    (hmvs : ∀ g rd, i ≠ .mvsTo g rd) : Confined (dests i) (pswWrites s.cfg i) s t := by
  cases i <;> simp only [exec, dests, pswWrites] at h ⊢
  case swi => exact absurd rfl hswi
  case reti => exact absurd rfl hreti
  case mvsTo g rd => exact absurd rfl (hmvs g rd)
  case ldi | lsi | mvsFrom | smvApc | smvApsw | smvPsw | smvAcs => exact writeReg_confined (.head _) h
  case mov => exact writeReg_confined (.head _) (readReg_eq_next.1 h).2
  case amv rd r =>
    unfold execAmv at h
    split at h
    · exact writeReg_confined (.head _) h
    · exact (archRead_confined r s).trans (writeReg_confined (.head _) h)
  case addR | addI => exact alu2_confined h flagsWithin_addOut fun _ => .head _
  case anwR | anwI => exact alu2_confined h flagsWithin_addOut nofun
  case subR | subI => exact alu2_confined h flagsWithin_subOut fun _ => .head _
  case cmpR | cmpI => exact alu2_confined h flagsWithin_subOut nofun
  case andR | andI => exact alu2_confined h flagsWithin_andOut fun _ => .head _
  case tstR | tstI => exact alu2_confined h flagsWithin_andOut nofun
  case orR | orI => exact alu2_confined h flagsWithin_orOut fun _ => .head _
  case onwR | onwI => exact alu2_confined h flagsWithin_orOut nofun
  case xorR | xorI => exact alu2_confined h flagsWithin_xorOut fun _ => .head _
  case tbcR | tbcI => exact alu2_confined h flagsWithin_xorOut nofun
  case mul => exact alu2_confined h flagsWithin_mulOut fun _ => .head _
  case mnw => exact alu2_confined h flagsWithin_mulOut nofun
  case mul32 => exact multiply32_confined h (by simp) (by simp) fun _ => by simp
  case mnw32 => exact multiply32_confined h (by simp) (by simp) nofun
  case div => exact divide16_confined h (by simp) (by simp) fun _ => .head _
  case dnw => exact divide16_confined h (by simp) (by simp) nofun
  case div32 => exact divide32_confined h (by simp) (by simp) fun _ => by simp
  case dnw32 => exact divide32_confined h (by simp) (by simp) nofun
  case sl | slc | sr | src | sra | sac =>
    exact shiftOp_confined h (by simp) (by simp) (fun h3 => absurd h3 (by simp)) (.head _)
  case ror | roc =>
    exact shiftOp_confined h (rotate_writes_nz s.cfg 0 (by simp)) (rotate_writes_nz s.cfg 1 (by simp))
      (fun h3 _ _ _ => rotateCarry_eq_none h3) (.head _)
  case swb | inv | neg => exact single_confined (.head _) h
  case ld =>
    obtain ⟨-, g, -, h⟩ := implicitAddr_eq_next.1 h
    exact loadInto_confined (.head _) h
  case st =>
    obtain ⟨-, g, -, h⟩ := implicitAddr_eq_next.1 h
    exact storeFrom_confined h
  case lds => exact loadInto_confined (.head _) (explicitAddr_eq_next.1 h).2
  case sts => exact storeFrom_confined (explicitAddr_eq_next.1 h).2
  case jz | jnz | jc | jnc | jn | jnn | jo | jno => exact jumpIf_confined h
  case jml =>
    unfold execJml at h
    split at h
    · exact transfer_confined (readReg_eq_next.1 (readReg_eq_next.1 h).2).2
    · cases h
  case srs | srd => exact selectStack_confined h
  case ers | erd => exact selectExtra_confined h
  case set | clr | set2 | clr2 => exact writePswBit_confined h
  case nop =>
    obtain rfl := by simpa [execNop] using h
    exact .refl _
  case fsh =>
    obtain rfl := by simpa [execFsh] using h
    exact confined_flush s
  case hlt =>
    obtain rfl := by simpa [execHlt] using h
    exact confined_halt s

/-- Interrupt entry writes none of DS, SS and ES (60_exceptions.md R326). -/
theorem interruptEntry_segments (v : EntryVector) (s : State) :
    (interruptEntry v s).ds = s.ds ∧ (interruptEntry v s).ss = s.ss ∧ (interruptEntry v s).es = s.es :=
  have hk := coreKept_loadWord (vectorAddr v) s
  ⟨hk.ds, hk.ss, hk.es⟩

/-- MVS Sx, Rd completes in the write of a segment register (40_data_movement.md R137). -/
theorem execMvsTo_eq_next {g : Seg} {rd : RegNum} (h : exec (.mvsTo g rd) s = .next t) :
    t = s.setSeg g (s.reg rd) := by
  simp only [exec, execMvsTo] at h
  split at h
  · cases h
  · obtain ⟨-, h⟩ := readReg_eq_next.1 h
    exact (Host.Outcome.next.inj h).symm

/-- No instruction but SWI and RETI, which switch the view, changes S of the active PSW (10_state.md R32). -/
theorem exec_pswS {i : Instr} (h : exec i s = .next t) (hswi : i ≠ .swi) (hreti : i ≠ .reti) :
    pswS t.psw = pswS s.psw := by
  refine (exec_updates h hswi hreti).same (f := fun s => pswS s.psw) fun a b hu => ?_
  cases hu
  case setPsw p hp => simpa using hp
  all_goals rfl

end Sys2Proof.Safety
end

section
/-! ## The frames of the instructions (10_state.md R20, R23, R27, R30, R32) -/

namespace Sys2Proof.Proofs

open Sys2Proof.Machine Sys2Proof.Safety

/-- Settles O27: MVS Sx, Rd leaves the PSW alone, every other instruction confines itself to its bits. -/
theorem pswWrittenOnlyAsNamed : Obligations.PswWrittenOnlyAsNamed := by
  unfold Obligations.PswWrittenOnlyAsNamed
  intro i s t h hswi hreti
  refine ⟨?_, exec_pswS h hswi hreti⟩
  by_cases hmvs : ∃ g rd, i = .mvsTo g rd
  · obtain ⟨g, rd, rfl⟩ := hmvs
    obtain rfl := execMvsTo_eq_next h
    exact fun _ _ => rfl
  · exact (exec_confined h hswi hreti fun g rd e => hmvs ⟨g, rd, e⟩).psw

/-- Settles O29: SWI, RETI and MVS Sx, Rd write no general register, every other instruction confines itself to its
destinations. -/
theorem onlyDestinationsChange : Obligations.OnlyDestinationsChange := by
  unfold Obligations.OnlyDestinationsChange
  intro i s t h
  by_cases hswi : i = .swi
  · subst hswi
    obtain ⟨-, rfl⟩ := execSwi_eq_next.1 h
    exact ⟨fun r hr _ => reg_eq_of_regs (by simp) hr, fun _ => interruptEntry_segments .swi s⟩
  by_cases hreti : i = .reti
  · subst hreti
    obtain ⟨-, rfl⟩ := execReti_eq_next.1 h
    exact ⟨fun r hr _ => reg_eq_of_regs (by simp) hr, fun _ => ⟨rfl, rfl, rfl⟩⟩
  by_cases hmvs : ∃ g rd, i = .mvsTo g rd
  · obtain ⟨g, rd, rfl⟩ := hmvs
    obtain rfl := execMvsTo_eq_next h
    exact ⟨fun _ _ _ => rfl, fun hne => absurd rfl (hne g rd)⟩
  · have hc := exec_confined h hswi hreti fun g rd e => hmvs ⟨g, rd, e⟩
    exact ⟨hc.reg, fun _ => ⟨hc.ds, hc.ss, hc.es⟩⟩

end Sys2Proof.Proofs
end

section
/-! ## Memory over a step: the canonical form and the boot ROM (20_memory.md R61, R66, R73) -/

namespace Sys2Proof.Safety

open Sys2Proof.Machine

/-! ### Interrupt entry reads memory and writes none of it (60_exceptions.md R326) -/

theorem noStore_loadWord (a : PhysAddr) (s : State) : NoStore s (loadWord a s).2 := by
  rcases loadWord_state a s with h | h | ⟨ws, h⟩ <;> rw [h]
  · exact .refl s
  · exact noStore_setDraws s _
  · exact noStore_setPlatformIn s ws

@[simp] theorem loadWord_mem (a : PhysAddr) (s : State) : (loadWord a s).2.mem = s.mem := by
  rcases loadWord_state a s with h | h | ⟨ws, h⟩ <;> rw [h] <;> rfl

@[simp] theorem interruptEntry_mem (v : EntryVector) (s : State) : (interruptEntry v s).mem = s.mem :=
  loadWord_mem (vectorAddr v) s

@[simp] theorem interruptEntry_platformOut (v : EntryVector) (s : State) :
    (interruptEntry v s).platformOut = s.platformOut :=
  (noStore_loadWord (vectorAddr v) s).platformOut

@[simp] theorem interruptReturn_mem (s : State) : (interruptReturn s).mem = s.mem := rfl

/-! ### What a single update does to memory -/

/-- The one way memory changes: the store of a word to ordinary memory (20_memory.md R65, R73). -/
theorem update_mem {s t : State} (h : Update s t) :
    t.mem = s.mem ∨ ∃ a v, IsHome a ∧ t.mem = writeWord s.mem a v := by
  cases h
  case storeMem a v ha => exact .inr ⟨a, v, ha, rfl⟩
  all_goals exact .inl rfl

theorem stepUpdate_mem {s t : State} (h : StepUpdate s t) :
    t.mem = s.mem ∨ ∃ a v, IsHome a ∧ t.mem = writeWord s.mem a v := by
  cases h with
  | instruction h => exact update_mem h
  | enter v => exact .inl (interruptEntry_mem v s)
  | sample | age | setPc | setCs | clearDly | leave => exact .inl rfl

theorem stepUpdate_memoryCanonical {s t : State} (h : StepUpdate s t) (hs : MemoryCanonical s) :
    MemoryCanonical t := by
  unfold MemoryCanonical at hs ⊢
  rcases stepUpdate_mem h with hm | ⟨a, v, -, hm⟩ <;> rw [hm]
  · exact hs
  · exact writeWord_wf s.mem a v hs

theorem stepUpdate_romIntact {s t : State} (h : StepUpdate s t) (hs : RomIntact s) : RomIntact t := by
  intro c hc
  rcases stepUpdate_mem h with hm | ⟨a, v, ha, hm⟩ <;> rw [hm]
  · exact hs c hc
  · have hbelow : a.toNat < bootRomBase := lt_trans ha (by decide)
    rw [readCell_writeWord_rom s.mem a v hbelow hc]
    exact hs c hc

end Sys2Proof.Safety

namespace Sys2Proof.Proofs

open Sys2Proof.Machine Sys2Proof.Safety

/-- Settles O15: the only update that changes memory writes a word, which keeps the canonical form. -/
theorem memoryCanonicalKept : Obligations.MemoryCanonicalKept := by
  unfold Obligations.MemoryCanonicalKept
  exact fun s t hs h => step_keeps (fun _ _ => stepUpdate_memoryCanonical) (fun _ => reset_mem_wf) h hs

/-- Settles O16: the only update that changes memory writes a word below the boot ROM; after reset its cells are
unlisted. -/
theorem bootRomKept : Obligations.BootRomKept := by
  unfold Obligations.BootRomKept
  exact fun s t hs h => step_keeps (fun _ _ => stepUpdate_romIntact) (fun _ _ _ => rfl) h hs

end Sys2Proof.Proofs
end

section
/-! ## The bus: which instructions write memory, hand the platform a write, or take its answer (20_memory.md R65) -/

namespace Sys2Proof.Safety

open Sys2Proof.Machine

/-- The traffic of an instruction on the bus is at most what it is allowed: with `store` false memory is as before
and the platform got no write, with `load` false no platform answer was taken. -/
structure BusWithin (store load : Bool) (s t : State) : Prop where
  mem : store = false → t.mem = s.mem
  platformOut : store = false → t.platformOut = s.platformOut
  platformIn : load = false → t.platformIn = s.platformIn

variable {store load : Bool} {s m t : State}

/-! ### The single updates -/

theorem BusWithin.trans (h : BusWithin store load s m) (h' : BusWithin store load m t) : BusWithin store load s t :=
  ⟨fun e => (h'.mem e).trans (h.mem e), fun e => (h'.platformOut e).trans (h.platformOut e),
    fun e => (h'.platformIn e).trans (h.platformIn e)⟩

/-- No traffic is within every allowance. -/
theorem busWithin_of_same (hm : t.mem = s.mem) (ho : t.platformOut = s.platformOut)
    (hi : t.platformIn = s.platformIn) : BusWithin store load s t := ⟨fun _ => hm, fun _ => ho, fun _ => hi⟩

theorem BusWithin.refl (s : State) : BusWithin store load s s := busWithin_of_same rfl rfl rfl

theorem busWithin_setPsw (s : State) (p : Word) : BusWithin store load s (s.setPsw p) :=
  busWithin_of_same rfl rfl rfl

theorem busWithin_setDraws (s : State) (n : Nat) : BusWithin store load s (s.setDraws n) :=
  busWithin_of_same rfl rfl rfl

/-! ### The shared operations -/

theorem transfer_busWithin {c : Option Word} {v : Word} (h : transfer c v s = .next t) :
    BusWithin store load s t := by
  obtain ⟨-, rfl⟩ := transfer_eq_next.1 h
  exact busWithin_of_same rfl rfl rfl

theorem writeReg_busWithin {r : RegNum} {v : Word} (h : writeReg r v s = .next t) : BusWithin store load s t := by
  rcases writeReg_eq_next.1 h with ⟨-, rfl⟩ | ⟨-, -, rfl⟩
  · exact busWithin_of_same rfl rfl rfl
  · exact busWithin_of_same rfl rfl rfl

theorem writePair_busWithin {r : RegNum} {lo hi : Word} (h : writePair r lo hi s = .next t) :
    BusWithin store load s t := by
  unfold writePair at h
  split at h
  · rename_i m hm
    exact (writeReg_busWithin hm).trans (writeReg_busWithin h)
  · cases h
  · cases h

theorem alu2_busWithin {f : Params → Word → Word → Word → AluOut} {w : Bool} {rd : RegNum} {x : Src}
    (h : alu2 f w rd x s = .next t) : BusWithin store load s t := by
  obtain ⟨a, b, hab⟩ := alu2_eq_next h
  cases w
  · obtain rfl := by simpa using hab
    exact busWithin_setPsw s _
  · exact (busWithin_setPsw s _).trans (writeReg_busWithin hab)

theorem shiftOp_busWithin {f : Params → Bool → Word → Nat → ShiftOut} {rd : RegNum} {n : BitVec 3}
    (h : shiftOp f rd n s = .next t) : BusWithin store load s t :=
  (busWithin_setPsw s _).trans (writeReg_busWithin (readReg_eq_next.1 h).2)

theorem single_busWithin {f : Word → Word} {rx : RegNum} (h : single f rx s = .next t) : BusWithin store load s t :=
  writeReg_busWithin (readReg_eq_next.1 h).2

theorem multiply32_busWithin {w : Bool} {rd rs : RegNum} (h : multiply32 w rd rs s = .next t) :
    BusWithin store load s t := by
  unfold multiply32 at h
  split at h
  · have h := (readReg_eq_next.1 (readReg_eq_next.1 h).2).2
    unfold multiplyInto at h
    cases w
    · obtain rfl := by simpa using h
      exact busWithin_setPsw s _
    · exact (busWithin_setPsw s _).trans (writePair_busWithin h)
  · cases h

/-- A division draws free values and asks the platform nothing (41_alu.md R167). -/
theorem divide_divFlags_busWithin (a b : Word) (o : DivOut) (s : State) :
    BusWithin store load s (divFlags o (divide a b s).2) := by
  rw [divide_state]
  exact (busWithin_setDraws s _).trans (busWithin_setPsw _ _)

theorem divide16_busWithin {w : Bool} {rd rs : RegNum} (h : divide16 w rd rs s = .next t) :
    BusWithin store load s t := by
  have h := (readReg_eq_next.1 (readReg_eq_next.1 h).2).2
  have hdiv : BusWithin store load s _ :=
    divide_divFlags_busWithin (s.reg rd) (s.reg rs) (divide (s.reg rd) (s.reg rs) s).1 s
  cases w
  · obtain rfl := by simpa using h
    exact hdiv
  · exact hdiv.trans (writeReg_busWithin h)

theorem divide32_busWithin {w : Bool} {rd rs : RegNum} (h : divide32 w rd rs s = .next t) :
    BusWithin store load s t := by
  unfold divide32 at h
  split at h
  · have h := (readReg_eq_next.1 (readReg_eq_next.1 h).2).2
    have hdiv : BusWithin store load s _ :=
      divide_divFlags_busWithin (s.reg rd) (s.reg rs) (divide (s.reg rd) (s.reg rs) s).1 s
    cases w
    · obtain rfl := by simpa using h
      exact hdiv
    · exact hdiv.trans (writePair_busWithin h)
  · cases h

theorem jumpIf_busWithin {c : Bool} {target : BitVec 9} (h : jumpIf c target s = .next t) :
    BusWithin store load s t := by
  cases c
  · obtain rfl := by simpa [jumpIf] using h
    exact .refl _
  · exact transfer_busWithin h

theorem archRead_busWithin (r : RegNum) (s : State) : BusWithin store load s (archRead r s).2 := by
  unfold archRead
  rw [chooseOld_state]
  exact busWithin_setDraws s _

/-- A data read hands the platform no write and changes no memory (20_memory.md R71). -/
theorem loadWord_busWithin (a : PhysAddr) (s : State) : BusWithin store true s (loadWord a s).2 :=
  ⟨fun _ => loadWord_mem a s, fun _ => (noStore_loadWord a s).platformOut, nofun⟩

theorem loadInto_busWithin {rd : RegNum} {a : PhysAddr} (h : loadInto rd a s = .next t) :
    BusWithin store true s t := (loadWord_busWithin a s).trans (writeReg_busWithin h)

/-- A data write takes no answer of the platform (20_memory.md R71). -/
theorem storeFrom_busWithin {rd : RegNum} {a : PhysAddr} (h : storeFrom rd a s = .next t) :
    BusWithin true load s t := by
  rcases storeWord_eq_next.1 (readReg_eq_next.1 h).2 with ⟨-, ⟨-, rfl⟩ | ⟨-, rfl⟩⟩
  · exact ⟨nofun, nofun, fun _ => rfl⟩
  · exact ⟨nofun, nofun, fun _ => rfl⟩

/-! ### Every instruction -/

/-- The stores write, the loads and SWI's vector read take an answer, every other instruction keeps to itself. -/
theorem exec_busWithin {i : Instr} (h : exec i s = .next t) : BusWithin (isStore i) (isLoad i) s t := by
  cases i <;> simp only [exec, isStore, isLoad] at h ⊢
  case ld =>
    obtain ⟨-, g, -, h⟩ := implicitAddr_eq_next.1 h
    exact loadInto_busWithin h
  case lds => exact loadInto_busWithin (explicitAddr_eq_next.1 h).2
  case swi =>
    obtain ⟨-, rfl⟩ := execSwi_eq_next.1 h
    exact ⟨fun _ => interruptEntry_mem .swi s, fun _ => interruptEntry_platformOut .swi s, nofun⟩
  case st =>
    obtain ⟨-, g, -, h⟩ := implicitAddr_eq_next.1 h
    exact storeFrom_busWithin h
  case sts => exact storeFrom_busWithin (explicitAddr_eq_next.1 h).2
  case ldi | lsi | mvsFrom | smvApc | smvApsw | smvPsw | smvAcs => exact writeReg_busWithin h
  case mov => exact writeReg_busWithin (readReg_eq_next.1 h).2
  case amv rd r =>
    unfold execAmv at h
    split at h
    · exact writeReg_busWithin h
    · exact (archRead_busWithin r s).trans (writeReg_busWithin h)
  case addR | addI | anwR | anwI | subR | subI | cmpR | cmpI | andR | andI | tstR | tstI | orR | orI | onwR | onwI |
      xorR | xorI | tbcR | tbcI | mul | mnw => exact alu2_busWithin h
  case mul32 | mnw32 => exact multiply32_busWithin h
  case div | dnw => exact divide16_busWithin h
  case div32 | dnw32 => exact divide32_busWithin h
  case sl | slc | sr | src | sra | sac | ror | roc => exact shiftOp_busWithin h
  case swb | inv | neg => exact single_busWithin h
  case jz | jnz | jc | jnc | jn | jnn | jo | jno => exact jumpIf_busWithin h
  case jml =>
    unfold execJml at h
    split at h
    · exact transfer_busWithin (readReg_eq_next.1 (readReg_eq_next.1 h).2).2
    · cases h
  case srs | srd | ers | erd =>
    obtain rfl := Host.Outcome.next.inj h
    exact busWithin_setPsw s _
  case set | clr | set2 | clr2 =>
    obtain ⟨-, -, rfl⟩ := writePswBit_eq_next.1 h
    exact busWithin_setPsw s _
  case mvsTo g rd =>
    obtain rfl := execMvsTo_eq_next h
    exact busWithin_of_same rfl rfl rfl
  case reti =>
    obtain ⟨-, rfl⟩ := execReti_eq_next.1 h
    exact busWithin_of_same rfl rfl rfl
  case nop | fsh | hlt =>
    obtain rfl := Host.Outcome.next.inj h
    exact busWithin_of_same rfl rfl rfl

end Sys2Proof.Safety

namespace Sys2Proof.Proofs

open Sys2Proof.Machine Sys2Proof.Safety

/-- Settles O28: every instruction keeps within the traffic its kind is allowed. -/
theorem memoryTouchedOnlyAsNamed : Obligations.MemoryTouchedOnlyAsNamed := by
  unfold Obligations.MemoryTouchedOnlyAsNamed
  intro i s t h
  have hb := exec_busWithin h
  exact ⟨fun hs => ⟨fun c => by rw [hb.mem hs], hb.platformOut hs⟩, hb.platformIn⟩

end Sys2Proof.Proofs
end

section
/-! ## Addresses, loads after stores, the fetch and the screen (20_memory.md R62, R63, R67, R75, R78) -/

namespace Sys2Proof.Safety

open Sys2Proof.Machine

/-! ### The regions as the model tests them -/

theorem isPlatform_of_isHome {a : PhysAddr} (h : IsHome a) : isPlatform a = false := by
  rw [← Bool.not_eq_true, isPlatform_iff]
  exact fun hp => absurd h (Nat.not_lt.2 hp.1)

/-- The screen buffer lies in the platform's part of the map (20_memory.md R66, R67). -/
theorem isPlatform_of_isScreen {a : PhysAddr} (h : isScreen a = true) : isPlatform a = true := by
  simp only [isScreen, Bool.and_eq_true, decide_eq_true_eq] at h
  obtain ⟨hlo, hhi⟩ := h
  exact (isPlatform_iff a).2 ⟨by omega, by omega⟩

/-! ### Loads and stores through any name of an address -/

/-- ST and STS are one store of the register's value at the address they name (44_memory_access.md R215, R217). -/
theorem storeWord_of_storesTo {i : Instr} {s t : State} {rd rb : RegNum} {a : PhysAddr} (hi : StoresTo i s rd rb a)
    (h : exec i s = .next t) : storeWord a (s.reg rd) s = .next t := by
  rcases hi with ⟨off, g, rfl, hg, rfl⟩ | ⟨g, rfl, rfl⟩
  · simp only [exec] at h
    obtain ⟨-, g', hg', h⟩ := implicitAddr_eq_next.1 h
    obtain rfl : g = g' := Option.some.inj (hg.symm.trans hg')
    exact (readReg_eq_next.1 h).2
  · simp only [exec] at h
    exact (readReg_eq_next.1 (explicitAddr_eq_next.1 h).2).2

/-- LD and LDS are one load from the address they name (44_memory_access.md R214, R216). -/
theorem exec_of_loadsFrom {i : Instr} {s : State} {rd rb : RegNum} {a : PhysAddr} (hi : LoadsFrom i s rd rb a)
    (hb : Usable s rb) : exec i s = loadInto rd a s := by
  rcases hi with ⟨off, g, rfl, hg, rfl⟩ | ⟨g, rfl, rfl⟩
  · simp only [exec, execLd, implicitAddr, readReg_of_usable hb, hg, effectiveOffset]
  · simp only [exec, execLds, explicitAddr, readReg_of_usable hb]

/-- A load of a word that has a value gives that value and nothing else (20_memory.md R75). -/
theorem loadInto_gives {s : State} {rd : RegNum} {a : PhysAddr} {w : Word} (hp : isPlatform a = false)
    (hw : readWord s.mem a = some w) (hd : Usable s rd) : Gives (loadInto rd a s) s rd w := by
  unfold loadInto
  rw [loadWord_of_readWord hp hw]
  exact writeReg_completes s rd w hd

/-! ### The fetch -/

/-- A fetch outside the platform chooses between the word and those the window's stores replaced. -/
theorem fetchWord_of_not_isPlatform {a : PhysAddr} (h : ¬IsPlatform a) (s : State) :
    fetchWord a s = chooseOld (readWord s.mem a) ((s.stored.filter (·.addr = a)).map (·.old)) s := by
  have hp : isPlatform a ≠ true := fun e => h ((isPlatform_iff a).1 e)
  simp [fetchWord, hp]

/-- With no store of the window at `a` the fetch reads memory and draws nothing (20_memory.md R78). -/
theorem fetchWord_of_not_stored {a : PhysAddr} (h : ¬IsPlatform a) {s : State} (hs : ∀ e ∈ s.stored, e.addr ≠ a) :
    fetchWord a s = (readWord s.mem a, s) := by
  have hnone : s.stored.filter (·.addr = a) = [] := List.filter_eq_nil_iff.2 fun e he => by simpa using hs e he
  rw [fetchWord_of_not_isPlatform h, hnone, List.map_nil, chooseOld_nil]

/-- After a flush no store is left in the window (47_system.md R272). -/
theorem fetchWord_of_flushed {a : PhysAddr} (h : ¬IsPlatform a) {s : State} (hs : s.stored = []) :
    fetchWord a s = (readWord s.mem a, s) :=
  fetchWord_of_not_stored h (by simp [hs])

/-! ### The screen -/

theorem screenCell_platformWrite_self {s : State} {a : PhysAddr} (h : isScreen a = true) (v : Word) :
    screenCell (s.platformWrite a v) a = some v := by
  simp [screenCell, h, List.filter_append]

theorem screenCell_platformWrite_ne (s : State) {a a' : PhysAddr} (h : a' ≠ a) (v : Word) :
    screenCell (s.platformWrite a v) a' = screenCell s a' := by
  simp [screenCell, List.filter_append, h.symm]

end Sys2Proof.Safety

namespace Sys2Proof.Proofs

open Sys2Proof.Machine Sys2Proof.Safety

/-- Settles O35: the store leaves the word at the address, and every load from there reads it. -/
theorem loadSeesLatestStore : Obligations.LoadSeesLatestStore := by
  unfold Obligations.LoadSeesLatestStore
  intro s t i rd rb a hcanon hhome hstore hexec j rd' rb' hload hrd' hrb'
  have hp := isPlatform_of_isHome hhome
  obtain ⟨-, ⟨hp', -⟩ | ⟨-, rfl⟩⟩ := storeWord_eq_next.1 (storeWord_of_storesTo hstore hexec)
  · exact absurd (hp.symm.trans hp') (by decide)
  · rw [exec_of_loadsFrom hload hrb']
    exact loadInto_gives hp (readWord_writeWord_self s.mem a (s.reg rd) hcanon) hrd'

/-- Settles O36: the fetch is a choice among memory's word and the window's; FSH, RETI and interrupt entry leave the
window empty and memory as it was. -/
theorem fetchAfterStore : Obligations.FetchAfterStore := by
  unfold Obligations.FetchAfterStore
  intro a s hp
  refine ⟨?_, fetchWord_of_not_stored hp, fun t h => ?_, fun t h => ?_, fun v => ?_⟩
  · rw [fetchWord_of_not_isPlatform hp]
    rcases List.mem_cons.1 (chooseOld_mem (readWord s.mem a) ((s.stored.filter (·.addr = a)).map (·.old)) s) with
      hcur | hold
    · exact .inl hcur
    · obtain ⟨e, he, heq⟩ := List.mem_map.1 hold
      obtain ⟨hmem, haddr⟩ := List.mem_filter.1 he
      exact .inr ⟨e, hmem, of_decide_eq_true haddr, heq.symm⟩
  · obtain rfl : flush s = t := Host.Outcome.next.inj h
    exact fetchWord_of_flushed hp rfl
  · obtain ⟨-, rfl⟩ := execReti_eq_next.1 h
    exact fetchWord_of_flushed hp rfl
  · rw [fetchWord_of_flushed hp (interruptEntry_stored v s), interruptEntry_mem]

/-- Settles O37: a screen cell is the platform's, so the store is the last write handed to it. -/
theorem screenShowsLastStore : Obligations.ScreenShowsLastStore := by
  unfold Obligations.ScreenShowsLastStore
  intro s t i rd rb a hstore hexec hlo hhi
  have hscreen : isScreen a = true := by simp [isScreen, hlo, hhi]
  have hp := isPlatform_of_isScreen hscreen
  obtain ⟨-, ⟨-, rfl⟩ | ⟨hp', -⟩⟩ := storeWord_eq_next.1 (storeWord_of_storesTo hstore hexec)
  · exact ⟨screenCell_platformWrite_self hscreen _, fun a' ha' => screenCell_platformWrite_ne s ha' _⟩
  · exact absurd (hp.symm.trans hp') (by decide)

/-- Settles O30: the number of a physical address, and that addresses are equal as their numbers are. -/
theorem physicalAddress : Obligations.PhysicalAddress := by
  unfold Obligations.PhysicalAddress
  refine ⟨phys_toNat, fun seg off seg' off' => ?_⟩
  rw [← phys_toNat, ← phys_toNat]
  exact BitVec.toNat_inj.symm

end Sys2Proof.Proofs
end

section
/-! ## The decoder on the formats (30_encoding.md R91 to R103)

A word of a format has the format's number of leading ones, so its decoder reads it, and reads back the fields the
encoder put there. -/

namespace Sys2Proof

@[simp] theorem Seg.ofCode_code (g : Seg) : Seg.ofCode g.code = g := by cases g <;> rfl

@[simp] theorem decode_encodeLdi (imm : BitVec 15) : decode (encode (.ldi imm)) = .ok (.ldi imm) := by
  unfold decode
  rw [encodeLdi_leadingOnes]
  exact congrArg (fun x => Except.ok (Instr.ldi x)) (encodeLdi_imm imm)

@[simp] theorem decode_encodeLdSt (d : BitVec 1) (rd rb : RegNum) (off : BitVec 5) :
    decode (encodeLdSt d rd rb off) = .ok (decodeLdSt (encodeLdSt d rd rb off)) := by
  unfold decode
  rw [encodeLdSt_leadingOnes]
  rfl

@[simp] theorem decode_encodeAlu2 (op : BitVec 3) (rd : RegNum) (wi : BitVec 2) (x : BitVec 4) :
    decode (encodeAlu2 op rd wi x) = .ok (decodeAlu2 (encodeAlu2 op rd wi x)) := by
  unfold decode
  rw [encodeAlu2_leadingOnes]
  rfl

/-- The shifts are the words of ALU2 whose op3 is 111 (30_encoding.md R95). -/
theorem decodeAlu2_eq_decodeShift {w : Word} (h : field w 10 3 = 7#3) : decodeAlu2 w = decodeShift w := by
  simp [decodeAlu2, h]

@[simp] theorem decode_encodeShift (rd : RegNum) (type count : BitVec 3) :
    decode (encodeShift rd type count) = .ok (decodeShift (encodeShift rd type count)) := by
  unfold decode
  rw [encodeShift_leadingOnes]
  exact congrArg _ (decodeAlu2_eq_decodeShift (encodeShift_op3 rd type count))

@[simp] theorem decode_encodeJmp (type : BitVec 3) (target : BitVec 9) :
    decode (encodeJmp type target) = .ok (decodeJmp (encodeJmp type target)) := by
  unfold decode
  rw [encodeJmp_leadingOnes]
  rfl

@[simp] theorem decode_encodeLdsSts (d : BitVec 1) (seg : Seg) (rd rs : RegNum) :
    decode (encodeLdsSts d seg rd rs) = .ok (decodeLdsSts (encodeLdsSts d seg rd rs)) := by
  unfold decode
  rw [encodeLdsSts_leadingOnes]
  rfl

@[simp] theorem decode_encodeMov (rd rs : RegNum) (imm : BitVec 2) :
    decode (encodeMov rd rs imm) = .ok (decodeMov (encodeMov rd rs imm)) := by
  unfold decode
  rw [encodeMov_leadingOnes]
  rfl

@[simp] theorem decode_encodeLsi (rd : RegNum) (imm : BitVec 5) :
    decode (encode (.lsi rd imm)) = .ok (.lsi rd imm) := by
  unfold decode
  rw [encodeLsi_leadingOnes]
  exact congrArg₂ (fun r x => Except.ok (Instr.lsi r x)) (encodeLsi_rd rd imm) (encodeLsi_imm rd imm)

@[simp] theorem decode_encodeSop (type x : BitVec 4) :
    decode (encodeSop type x) = decodeSop (encodeSop type x) := by
  unfold decode
  rw [encodeSop_leadingOnes]
  rfl

@[simp] theorem decode_encodeMvs (d : BitVec 1) (rd : RegNum) (seg : Seg) :
    decode (encodeMvs d rd seg) = .ok (decodeMvs (encodeMvs d rd seg)) := by
  unfold decode
  rw [encodeMvs_leadingOnes]
  rfl

@[simp] theorem decode_encodeSmv (src : BitVec 2) (rd : RegNum) :
    decode (encodeSmv src rd) = .ok (decodeSmv (encodeSmv src rd)) := by
  unfold decode
  rw [encodeSmv_leadingOnes]
  rfl

@[simp] theorem decode_encodeSys (op : BitVec 3) : decode (encodeSys op) = decodeSys (encodeSys op) := by
  unfold decode
  rw [encodeSys_leadingOnes]
  rfl

/-- MOV with an immediate other than 3 is no architectural read (30_encoding.md R98). -/
theorem decodeMov_encodeMov {rd rs : RegNum} {imm : BitVec 2} (h : imm ≠ 3#2) :
    decodeMov (encodeMov rd rs imm) = .mov rd rs imm := by
  have h3 : imm.toNat ≠ 3 := fun e => h (BitVec.eq_of_toNat_eq e)
  unfold decodeMov
  rw [encodeMov_imm, encodeMov_rs, encodeMov_rd]
  split
  case h_1 e => exact absurd e h3
  case h_2 => rfl

/-! ### The words of a format, by their value

Section 1's table read as ranges: every word of a format's range is the format with the word's own fields. -/

/-- The value of two fields side by side. -/
theorem toNat_pair {n m : Nat} (x : BitVec n) (y : BitVec m) : (x ++ y).toNat = x.toNat * 2 ^ m + y.toNat := by
  rw [BitVec.toNat_append, ← Nat.shiftLeft_add_eq_or_of_lt y.isLt, Nat.shiftLeft_eq]

/-- The value of a field. -/
theorem toNat_field (w : Word) (lo len : Nat) : (field w lo len).toNat = w.toNat / 2 ^ lo % 2 ^ len := by
  rw [field, BitVec.extractLsb'_toNat, Nat.shiftRight_eq_div_pow]

@[simp] theorem Seg.code_ofCode (c : BitVec 2) : (Seg.ofCode c).code = c := by revert c; decide

variable {w : Word}

theorem encodeLdi_fields (h : w.toNat < 0x8000) : encode (.ldi (field w 0 15)) = w := by
  apply BitVec.eq_of_toNat_eq
  simp only [encode, toNat_pair, toNat_field, BitVec.toNat_ofNat]
  omega

theorem encodeLdSt_fields (h : 0x8000 ≤ w.toNat) (h' : w.toNat < 0xC000) :
    encodeLdSt (field w 13 1) (field w 9 4) (field w 5 4) (field w 0 5) = w := by
  apply BitVec.eq_of_toNat_eq
  simp only [encodeLdSt, toNat_pair, toNat_field, BitVec.toNat_ofNat]
  omega

theorem encodeAlu2_fields (h : 0xC000 ≤ w.toNat) (h' : w.toNat < 0xE000) :
    encodeAlu2 (field w 10 3) (field w 6 4) (field w 4 2) (field w 0 4) = w := by
  apply BitVec.eq_of_toNat_eq
  simp only [encodeAlu2, toNat_pair, toNat_field, BitVec.toNat_ofNat]
  omega

theorem encodeShift_fields (h : 0xDC00 ≤ w.toNat) (h' : w.toNat < 0xE000) :
    encodeShift (field w 6 4) (field w 3 3) (field w 0 3) = w := by
  apply BitVec.eq_of_toNat_eq
  simp only [encodeShift, toNat_pair, toNat_field, BitVec.toNat_ofNat]
  omega

theorem encodeJmp_fields (h : 0xE000 ≤ w.toNat) (h' : w.toNat < 0xF000) :
    encodeJmp (field w 9 3) (field w 0 9) = w := by
  apply BitVec.eq_of_toNat_eq
  simp only [encodeJmp, toNat_pair, toNat_field, BitVec.toNat_ofNat]
  omega

theorem encodeLdsSts_fields (h : 0xF000 ≤ w.toNat) (h' : w.toNat < 0xF800) :
    encodeLdsSts (field w 10 1) (Seg.ofCode (field w 8 2)) (field w 4 4) (field w 0 4) = w := by
  apply BitVec.eq_of_toNat_eq
  simp only [encodeLdsSts, toNat_pair, toNat_field, Seg.code_ofCode, BitVec.toNat_ofNat]
  omega

theorem encodeMov_fields (h : 0xF800 ≤ w.toNat) (h' : w.toNat < 0xFC00) :
    encodeMov (field w 6 4) (field w 2 4) (field w 0 2) = w := by
  apply BitVec.eq_of_toNat_eq
  simp only [encodeMov, toNat_pair, toNat_field, BitVec.toNat_ofNat]
  omega

theorem encodeLsi_fields (h : 0xFC00 ≤ w.toNat) (h' : w.toNat < 0xFE00) :
    encode (.lsi (field w 5 4) (field w 0 5)) = w := by
  apply BitVec.eq_of_toNat_eq
  simp only [encode, toNat_pair, toNat_field, BitVec.toNat_ofNat]
  omega

theorem encodeSop_fields (h : 0xFE00 ≤ w.toNat) (h' : w.toNat < 0xFF00) :
    encodeSop (field w 4 4) (field w 0 4) = w := by
  apply BitVec.eq_of_toNat_eq
  simp only [encodeSop, toNat_pair, toNat_field, BitVec.toNat_ofNat]
  omega

theorem encodeMvs_fields (h : 0xFF00 ≤ w.toNat) (h' : w.toNat < 0xFF80) :
    encodeMvs (field w 6 1) (field w 2 4) (Seg.ofCode (field w 0 2)) = w := by
  apply BitVec.eq_of_toNat_eq
  simp only [encodeMvs, toNat_pair, toNat_field, Seg.code_ofCode, BitVec.toNat_ofNat]
  omega

theorem encodeSmv_fields (h : 0xFF80 ≤ w.toNat) (h' : w.toNat < 0xFFC0) :
    encodeSmv (field w 4 2) (field w 0 4) = w := by
  apply BitVec.eq_of_toNat_eq
  simp only [encodeSmv, toNat_pair, toNat_field, BitVec.toNat_ofNat]
  omega

theorem encodeSys_fields (h : 0xFFF0 ≤ w.toNat) (h' : w.toNat < 0xFFF8) : encodeSys (field w 0 3) = w := by
  apply BitVec.eq_of_toNat_eq
  simp only [encodeSys, toNat_pair, toNat_field, BitVec.toNat_ofNat]
  omega

theorem tenOnes_fields (h : 0xFFC0 ≤ w.toNat) (h' : w.toNat < 0xFFE0) : 0b11111111110#11 ++ field w 0 5 = w := by
  apply BitVec.eq_of_toNat_eq
  simp only [toNat_pair, toNat_field, BitVec.toNat_ofNat]
  omega

theorem elevenOnes_fields (h : 0xFFE0 ≤ w.toNat) (h' : w.toNat < 0xFFF0) : 0b111111111110#12 ++ field w 0 4 = w := by
  apply BitVec.eq_of_toNat_eq
  simp only [toNat_pair, toNat_field, BitVec.toNat_ofNat]
  omega

theorem thirteenOnes_fields (h : 0xFFF8 ≤ w.toNat) : 0b1111111111111#13 ++ field w 0 3 = w := by
  apply BitVec.eq_of_toNat_eq
  simp only [toNat_pair, toNat_field, BitVec.toNat_ofNat]
  omega

/-! ### The words of the instructions -/

theorem bitVec1_cases (x : BitVec 1) : x = 0#1 ∨ x = 1#1 := by revert x; decide

theorem bitVec2_cases (x : BitVec 2) : x = 0#2 ∨ x = 1#2 ∨ x = 2#2 ∨ x = 3#2 := by revert x; decide

theorem bitVec3_cases (x : BitVec 3) :
    x = 0#3 ∨ x = 1#3 ∨ x = 2#3 ∨ x = 3#3 ∨ x = 4#3 ∨ x = 5#3 ∨ x = 6#3 ∨ x = 7#3 := by revert x; decide

/-- The words of the instructions (30_encoding.md R107). -/
def IsInstrWord (w : Word) : Prop := ∃ i : Instr, i.wellFormed = true ∧ encode i = w

/-! Every choice of fields is the word of an instruction, but for four SOP types and four SYS operations. -/

theorem isInstrWord_encodeLdSt (d : BitVec 1) (rd rb : RegNum) (off : BitVec 5) :
    IsInstrWord (encodeLdSt d rd rb off) := by
  rcases bitVec1_cases d with rfl | rfl
  · exact ⟨.ld rd rb off, rfl, rfl⟩
  · exact ⟨.st rd rb off, rfl, rfl⟩

theorem isInstrWord_encodeAlu2 {op : BitVec 3} (h : op ≠ 7#3) (rd : RegNum) (wi : BitVec 2) (x : BitVec 4) :
    IsInstrWord (encodeAlu2 op rd wi x) := by
  refine ⟨decodeAlu2 (encodeAlu2 op rd wi x), ?_⟩
  simp only [decodeAlu2, encodeAlu2_op, encodeAlu2_rd, encodeAlu2_wi, encodeAlu2_x]
  rcases bitVec3_cases op with rfl | rfl | rfl | rfl | rfl | rfl | rfl | rfl
  case inr.inr.inr.inr.inr.inr.inr => exact absurd rfl h
  all_goals rcases bitVec2_cases wi with rfl | rfl | rfl | rfl <;> exact ⟨rfl, rfl⟩

theorem isInstrWord_encodeShift (rd : RegNum) (type count : BitVec 3) : IsInstrWord (encodeShift rd type count) := by
  rcases bitVec3_cases type with rfl | rfl | rfl | rfl | rfl | rfl | rfl | rfl
  · exact ⟨.sl rd count, rfl, rfl⟩
  · exact ⟨.slc rd count, rfl, rfl⟩
  · exact ⟨.sr rd count, rfl, rfl⟩
  · exact ⟨.src rd count, rfl, rfl⟩
  · exact ⟨.sra rd count, rfl, rfl⟩
  · exact ⟨.sac rd count, rfl, rfl⟩
  · exact ⟨.ror rd count, rfl, rfl⟩
  · exact ⟨.roc rd count, rfl, rfl⟩

theorem isInstrWord_encodeJmp (type : BitVec 3) (target : BitVec 9) : IsInstrWord (encodeJmp type target) := by
  rcases bitVec3_cases type with rfl | rfl | rfl | rfl | rfl | rfl | rfl | rfl
  · exact ⟨.jz target, rfl, rfl⟩
  · exact ⟨.jnz target, rfl, rfl⟩
  · exact ⟨.jc target, rfl, rfl⟩
  · exact ⟨.jnc target, rfl, rfl⟩
  · exact ⟨.jn target, rfl, rfl⟩
  · exact ⟨.jnn target, rfl, rfl⟩
  · exact ⟨.jo target, rfl, rfl⟩
  · exact ⟨.jno target, rfl, rfl⟩

theorem isInstrWord_encodeLdsSts (d : BitVec 1) (seg : Seg) (rd rs : RegNum) :
    IsInstrWord (encodeLdsSts d seg rd rs) := by
  rcases bitVec1_cases d with rfl | rfl
  · exact ⟨.lds rd seg rs, rfl, rfl⟩
  · exact ⟨.sts rd seg rs, rfl, rfl⟩

theorem isInstrWord_encodeMov (rd rs : RegNum) (imm : BitVec 2) : IsInstrWord (encodeMov rd rs imm) := by
  by_cases h : imm = 3#2
  · exact ⟨.amv rd rs, rfl, by rw [h]; rfl⟩
  · exact ⟨.mov rd rs imm, by simpa [Instr.wellFormed] using h, rfl⟩

theorem isInstrWord_encodeSop {type : BitVec 4} (h : type.toNat ≠ 3 ∧ ¬(5 ≤ type.toNat ∧ type.toNat ≤ 7))
    (x : BitVec 4) : IsInstrWord (encodeSop type x) := by
  obtain rfl | rfl | rfl | rfl | rfl | rfl | rfl | rfl | rfl | rfl | rfl | rfl :
      type = 0#4 ∨ type = 1#4 ∨ type = 2#4 ∨ type = 4#4 ∨ type = 8#4 ∨ type = 9#4 ∨ type = 10#4 ∨ type = 11#4 ∨
      type = 12#4 ∨ type = 13#4 ∨ type = 14#4 ∨ type = 15#4 := by revert type; decide
  · exact ⟨.swb x, rfl, rfl⟩
  · exact ⟨.inv x, rfl, rfl⟩
  · exact ⟨.neg x, rfl, rfl⟩
  · exact ⟨.jml x, rfl, rfl⟩
  · exact ⟨.srs x, rfl, rfl⟩
  · exact ⟨.srd x, rfl, rfl⟩
  · exact ⟨.ers x, rfl, rfl⟩
  · exact ⟨.erd x, rfl, rfl⟩
  · exact ⟨.set x, rfl, rfl⟩
  · exact ⟨.clr x, rfl, rfl⟩
  · exact ⟨.set2 x, rfl, rfl⟩
  · exact ⟨.clr2 x, rfl, rfl⟩

theorem isInstrWord_encodeMvs (d : BitVec 1) (rd : RegNum) (seg : Seg) : IsInstrWord (encodeMvs d rd seg) := by
  rcases bitVec1_cases d with rfl | rfl
  · exact ⟨.mvsFrom rd seg, rfl, rfl⟩
  · exact ⟨.mvsTo seg rd, rfl, rfl⟩

theorem isInstrWord_encodeSmv (src : BitVec 2) (rd : RegNum) : IsInstrWord (encodeSmv src rd) := by
  rcases bitVec2_cases src with rfl | rfl | rfl | rfl
  · exact ⟨.smvApc rd, rfl, rfl⟩
  · exact ⟨.smvApsw rd, rfl, rfl⟩
  · exact ⟨.smvPsw rd, rfl, rfl⟩
  · exact ⟨.smvAcs rd, rfl, rfl⟩

theorem isInstrWord_encodeSys {op : BitVec 3} (h : op.toNat < 4) : IsInstrWord (encodeSys op) := by
  obtain rfl | rfl | rfl | rfl : op = 0#3 ∨ op = 1#3 ∨ op = 2#3 ∨ op = 3#3 := by revert op; decide
  · exact ⟨.nop, rfl, rfl⟩
  · exact ⟨.fsh, rfl, rfl⟩
  · exact ⟨.swi, rfl, rfl⟩
  · exact ⟨.reti, rfl, rfl⟩

/-! ### The reserved words -/

/-- The six ranges of 30_encoding.md R120. -/
def InReservedRange (w : Word) : Prop :=
  (0xFE30 ≤ w.toNat ∧ w.toNat ≤ 0xFE3F) ∨ (0xFE50 ≤ w.toNat ∧ w.toNat ≤ 0xFE7F) ∨
  (0xFFC0 ≤ w.toNat ∧ w.toNat ≤ 0xFFDF) ∨ (0xFFE0 ≤ w.toNat ∧ w.toNat ≤ 0xFFEF) ∨
  (0xFFF4 ≤ w.toNat ∧ w.toNat ≤ 0xFFF7) ∨ (0xFFF8 ≤ w.toNat ∧ w.toNat ≤ 0xFFFE)

/-- A word in none of the reserved ranges is in the range of a format, and so the word of an instruction. -/
theorem isInstrWord_of_not_inReservedRange (h : ¬InReservedRange w) : IsInstrWord w := by
  unfold InReservedRange at h
  have hlt := w.isLt
  rcases Nat.lt_or_ge w.toNat 0x8000 with hi | lo
  · exact ⟨_, rfl, encodeLdi_fields hi⟩
  rcases Nat.lt_or_ge w.toNat 0xC000 with hi | lo
  · rw [← encodeLdSt_fields lo hi]
    exact isInstrWord_encodeLdSt ..
  rcases Nat.lt_or_ge w.toNat 0xDC00 with hi | lo'
  · have hop : (field w 10 3).toNat ≠ 7 := by rw [toNat_field]; omega
    rw [← encodeAlu2_fields lo (by omega)]
    exact isInstrWord_encodeAlu2 (fun e => hop (by rw [e]; rfl)) ..
  rcases Nat.lt_or_ge w.toNat 0xE000 with hi | lo
  · rw [← encodeShift_fields lo' hi]
    exact isInstrWord_encodeShift ..
  rcases Nat.lt_or_ge w.toNat 0xF000 with hi | lo'
  · rw [← encodeJmp_fields lo hi]
    exact isInstrWord_encodeJmp ..
  rcases Nat.lt_or_ge w.toNat 0xF800 with hi | lo
  · rw [← encodeLdsSts_fields lo' hi]
    exact isInstrWord_encodeLdsSts ..
  rcases Nat.lt_or_ge w.toNat 0xFC00 with hi | lo'
  · rw [← encodeMov_fields lo hi]
    exact isInstrWord_encodeMov ..
  rcases Nat.lt_or_ge w.toNat 0xFE00 with hi | lo
  · exact ⟨_, rfl, encodeLsi_fields lo' hi⟩
  rcases Nat.lt_or_ge w.toNat 0xFF00 with hi | lo'
  · rw [← encodeSop_fields lo hi]
    exact isInstrWord_encodeSop (by rw [toNat_field]; omega) _
  rcases Nat.lt_or_ge w.toNat 0xFF80 with hi | lo
  · rw [← encodeMvs_fields lo' hi]
    exact isInstrWord_encodeMvs ..
  rcases Nat.lt_or_ge w.toNat 0xFFC0 with hi | lo'
  · rw [← encodeSmv_fields lo hi]
    exact isInstrWord_encodeSmv ..
  rcases Nat.lt_or_ge w.toNat 0xFFF8 with hi | lo
  · rw [← encodeSys_fields (by omega) hi]
    exact isInstrWord_encodeSys (by rw [toNat_field]; omega)
  · exact ⟨.hlt, rfl, BitVec.eq_of_toNat_eq (by change 0xFFFF = w.toNat; omega)⟩

theorem decode_sop_reserved {type : BitVec 4} (h : type.toNat = 3 ∨ 5 ≤ type.toNat ∧ type.toNat ≤ 7)
    (x : BitVec 4) : decode (encodeSop type x) = .error .sopType := by
  simp only [decode_encodeSop, decodeSop, encodeSop_type]
  obtain rfl | rfl | rfl | rfl : type = 3#4 ∨ type = 5#4 ∨ type = 6#4 ∨ type = 7#4 := by revert type; decide
  all_goals rfl

theorem decode_sys_reserved {op : BitVec 3} (h : 4 ≤ op.toNat) : decode (encodeSys op) = .error .sysOp := by
  revert op
  decide

theorem decode_tenOnes (x : BitVec 5) : decode (0b11111111110#11 ++ x) = .error .tenOnes := by
  revert x
  decide

theorem decode_elevenOnes (x : BitVec 4) : decode (0b111111111110#12 ++ x) = .error .elevenOnes := by
  revert x
  decide

theorem decode_thirteenOnes {x : BitVec 3} (h : x.toNat < 7) :
    decode (0b1111111111111#13 ++ x) = .error .thirteenOnes := by
  revert x
  decide

/-- The decoder refuses the words of the reserved ranges (30_encoding.md R120). -/
theorem decode_of_inReservedRange (h : InReservedRange w) : ∃ why, decode w = .error why := by
  rcases h with ⟨lo, hi⟩ | ⟨lo, hi⟩ | ⟨lo, hi⟩ | ⟨lo, hi⟩ | ⟨lo, hi⟩ | ⟨lo, hi⟩
  · rw [← encodeSop_fields (w := w) (by omega) (by omega)]
    exact ⟨_, decode_sop_reserved (by rw [toNat_field]; omega) _⟩
  · rw [← encodeSop_fields (w := w) (by omega) (by omega)]
    exact ⟨_, decode_sop_reserved (by rw [toNat_field]; omega) _⟩
  · rw [← tenOnes_fields (w := w) (by omega) (by omega)]
    exact ⟨_, decode_tenOnes _⟩
  · rw [← elevenOnes_fields (w := w) (by omega) (by omega)]
    exact ⟨_, decode_elevenOnes _⟩
  · rw [← encodeSys_fields (w := w) (by omega) (by omega)]
    exact ⟨_, decode_sys_reserved (by rw [toNat_field]; omega)⟩
  · rw [← thirteenOnes_fields lo]
    exact ⟨_, decode_thirteenOnes (by rw [toNat_field]; omega)⟩

end Sys2Proof

namespace Sys2Proof.Proofs

open Sys2Proof.Machine Sys2Proof.Safety

/-- Settles O1, format by format: the format's decoder reads the fields the encoder wrote. -/
theorem decodeOfEncode : Obligations.DecodeOfEncode := by
  unfold Obligations.DecodeOfEncode
  intro i hwf
  cases i
  case ldi imm => exact decode_encodeLdi imm
  case lsi rd imm => exact decode_encodeLsi rd imm
  case ld rd rb off | st rd rb off =>
    rw [encode, decode_encodeLdSt, decodeLdSt, encodeLdSt_d, encodeLdSt_rd, encodeLdSt_rb, encodeLdSt_off]
    rfl
  case addR rd x | addI rd x | anwR rd x | anwI rd x | subR rd x | subI rd x | cmpR rd x | cmpI rd x | andR rd x |
      andI rd x | tstR rd x | tstI rd x | orR rd x | orI rd x | onwR rd x | onwI rd x | xorR rd x | xorI rd x |
      tbcR rd x | tbcI rd x | mul rd x | mul32 rd x | mnw rd x | mnw32 rd x | div rd x | div32 rd x | dnw rd x |
      dnw32 rd x =>
    rw [encode, decode_encodeAlu2, decodeAlu2, encodeAlu2_op, encodeAlu2_rd, encodeAlu2_wi, encodeAlu2_x]
    rfl
  case sl rd n | slc rd n | sr rd n | src rd n | sra rd n | sac rd n | ror rd n | roc rd n =>
    rw [encode, decode_encodeShift, decodeShift, encodeShift_type, encodeShift_rd, encodeShift_count]
    rfl
  case jz a | jnz a | jc a | jnc a | jn a | jnn a | jo a | jno a =>
    rw [encode, decode_encodeJmp, decodeJmp, encodeJmp_type, encodeJmp_target]
    rfl
  case lds rd g rs | sts rd g rs =>
    rw [encode, decode_encodeLdsSts, decodeLdsSts, encodeLdsSts_d, encodeLdsSts_seg, encodeLdsSts_rd,
      encodeLdsSts_rs, Seg.ofCode_code]
    rfl
  case mov rd rs imm =>
    have himm : imm ≠ 3#2 := by simpa [Instr.wellFormed] using hwf
    rw [encode, decode_encodeMov, decodeMov_encodeMov himm]
  case amv rd rs =>
    rw [encode, decode_encodeMov, decodeMov, encodeMov_imm, encodeMov_rd, encodeMov_rs]
    rfl
  case swb x | inv x | neg x | jml x | srs x | srd x | ers x | erd x | set x | clr x | set2 x | clr2 x =>
    rw [encode, decode_encodeSop, decodeSop, encodeSop_type, encodeSop_x]
    rfl
  case mvsFrom rd g | mvsTo g rd =>
    rw [encode, decode_encodeMvs, decodeMvs, encodeMvs_d, encodeMvs_rd, encodeMvs_seg, Seg.ofCode_code]
    rfl
  case smvApc rd | smvApsw rd | smvPsw rd | smvAcs rd =>
    rw [encode, decode_encodeSmv, decodeSmv, encodeSmv_src, encodeSmv_rd]
    rfl
  case nop | fsh | swi | reti | hlt => rfl

/-- Settles O2: a word that decodes is in no reserved range, so it is the word of an instruction, and O1 says
which. -/
theorem encodeOfDecode : Obligations.EncodeOfDecode := by
  unfold Obligations.EncodeOfDecode
  intro w i hdec
  have hres : ¬InReservedRange w := fun h => by
    obtain ⟨why, herr⟩ := decode_of_inReservedRange h
    exact nomatch hdec.symm.trans herr
  obtain ⟨j, hwf, rfl⟩ := isInstrWord_of_not_inReservedRange hres
  obtain rfl : j = i := Except.ok.inj ((decodeOfEncode j hwf).symm.trans hdec)
  exact ⟨hwf, rfl⟩

/-- The words the decoder refuses are those of the six ranges (30_encoding.md R120). -/
theorem decode_eq_error_iff (w : Word) : (∃ why, decode w = .error why) ↔ InReservedRange w := by
  refine ⟨fun ⟨why, herr⟩ => ?_, decode_of_inReservedRange⟩
  by_contra hres
  obtain ⟨i, hwf, rfl⟩ := isInstrWord_of_not_inReservedRange hres
  exact nomatch (decodeOfEncode i hwf).symm.trans herr

/-- A word that is not refused is the word of one instruction: the one it decodes to. -/
theorem existsUnique_instr {w : Word} (h : ∀ why, decode w ≠ .error why) :
    ∃! i : Instr, i.wellFormed = true ∧ encode i = w := by
  cases hdec : decode w with
  | error why => exact absurd hdec (h why)
  | ok i =>
    refine ⟨i, encodeOfDecode w i hdec, fun j hj => ?_⟩
    obtain ⟨hwf, rfl⟩ := hj
    exact Except.ok.inj ((decodeOfEncode j hwf).symm.trans hdec)

/-- An instruction boundary that fetches a reserved word refuses it by the decoder's name. -/
theorem runInstruction_of_reserved {s u : State} {w : Word} {why : Reserved} (hf : fetchNext s = (some w, u))
    (hd : decode w = .error why) : runInstruction s = .refused (.reserved why) := by
  simp [runInstruction, hf, hd]

/-- Settles O3: the ranges are the decoder's errors, the other words decode, and the fetch from memory or platform
hands the decoder the word. -/
theorem reservedWords : Obligations.ReservedWords := by
  unfold Obligations.ReservedWords
  refine ⟨decode_eq_error_iff, fun w => existsUnique_instr, fun s w why hrun hfetch hdec => ?_,
    fun s w ws why hrun hp hans hdec => ?_⟩
  · obtain ⟨hp, hwin, hword⟩ := hfetch
    have hf := fetchNext_of_memory (s := s.nextBoundary) hp hwin
    rw [step_of_runsInstruction hrun]
    exact runInstruction_of_reserved (hf.trans (congrArg (·, _) hword)) hdec
  · rw [step_of_runsInstruction hrun]
    exact runInstruction_of_reserved (fetchNext_of_platform (s := s.nextBoundary) hp hans) hdec

/-- Settles O4: the decoder run on each word. -/
theorem sampleWordsDecode : Obligations.SampleWordsDecode := by
  unfold Obligations.SampleWordsDecode
  decide

end Sys2Proof.Proofs
end

section
/-! ## The alternate registers (40_data_movement.md R142) -/

namespace Sys2Proof.Proofs

open Sys2Proof.Machine Sys2Proof.Safety

/-- What the inactive bank keeps in the shadow view is the normal bank (10_state.md R31). -/
theorem normal_eq_of_shadow_views {s t : State} (hs : s.view = .shadow) (ht : t.view = .shadow)
    (h : t.inactive = s.inactive) : t.normal = s.normal := by
  rwa [State.inactive_of_shadow hs, State.inactive_of_shadow ht] at h

/-- No instruction but SWI writes the bank that was inactive; RETI alone switches the view, and writes neither bank. -/
theorem exec_keeps_alternates {i : Instr} {s t : State} (h : exec i s = .next t) (hswi : i ≠ .swi) :
    (t.view = s.view ∧ t.inactive = s.inactive) ∨ (i = .reti ∧ t.normal = s.normal ∧ t.shadow = s.shadow) := by
  rcases exec_cases h with hu | ⟨hi, -, -⟩ | ⟨hi, -, rfl⟩
  · obtain ⟨-, -, hview, hinactive, -, -⟩ := updates_core hu
    exact .inl ⟨hview, hinactive⟩
  · exact absurd hi hswi
  · exact .inr ⟨hi, interruptReturn_normal s, interruptReturn_shadow s⟩

/-- In the shadow view no instruction, SWI and RETI among them, writes the normal bank. -/
theorem exec_normal_of_shadow {i : Instr} {s t : State} (hs : s.view = .shadow) (h : exec i s = .next t) :
    t.normal = s.normal := by
  by_cases hswi : i = .swi
  · subst hswi
    obtain ⟨-, rfl⟩ := execSwi_eq_next.1 h
    exact interruptEntry_normal .swi s
  · rcases exec_keeps_alternates h hswi with ⟨hview, hinactive⟩ | ⟨-, hnormal, -⟩
    · exact normal_eq_of_shadow_views hs (hview.trans hs) hinactive
    · exact hnormal

/-- The transfer a delay slot completes writes the active bank alone (10_state.md R26). -/
theorem completeTransfer_normal_of_shadow (d : Transfer) {s : State} (hs : s.view = .shadow) :
    (completeTransfer d s).normal = s.normal :=
  normal_eq_of_shadow_views hs ((completeTransfer_view d s).trans hs) (completeTransfer_inactive d s)

/-- A step of a handler leaves the bank RETI returns to: the instruction does, and so does the transfer after it,
since the instruction of a delay slot does not leave the view. -/
theorem step_normal_of_shadow {s t : State} (hr : NoReset s) (hs : s.view = .shadow) (h : step s = .next t) :
    t.normal = s.normal := by
  rcases step_cases h with ⟨hreset, -⟩ | ⟨-, -, rfl⟩ | ⟨-, -, -, rfl⟩ | ⟨-, -, w, i, u, m, hfetch, -, hexec, hend⟩
  · exact absurd (hr.symm.trans hreset) (by decide)
  · rfl
  · exact interruptEntry_normal .hardware s.nextBoundary
  · obtain ⟨-, -, hview, hinactive, -, -, -, hdly⟩ := fetch_advance hfetch
    have hu : (advancePc u).view = .shadow := hview.trans hs
    have hm : m.normal = s.normal :=
      (exec_normal_of_shadow hu hexec).trans (normal_eq_of_shadow_views hs hu hinactive)
    rcases hend with ⟨-, rfl⟩ | ⟨d, hd, rfl⟩
    · exact hm
    · have hslot : (advancePc u).dly ≠ none := by simp [hdly, hd]
      obtain ⟨-, -, hview', -⟩ := updates_core (exec_updates_of_inSlot hslot hexec)
      exact (completeTransfer_normal_of_shadow d (hview'.trans hu)).trans hm

/-- Settles O12: instruction by instruction, then over the fetch and the completion of a delay slot. -/
theorem handlerKeepsInterruptedContext : Obligations.HandlerKeepsInterruptedContext := by
  unfold Obligations.HandlerKeepsInterruptedContext
  exact ⟨fun i s t => exec_keeps_alternates, fun s t => step_normal_of_shadow⟩

end Sys2Proof.Proofs
end

section
/-! ## Data movement (40_data_movement.md R130 to R141) -/

namespace Sys2Proof.Safety

open Sys2Proof.Machine

/-! ### The meanings, as register writes -/

theorem exec_ldi (s : State) (imm : BitVec 15) : exec (.ldi imm) s = writeReg 0 (imm.setWidth 16) s := rfl

theorem exec_lsi (s : State) (rd : RegNum) (imm : BitVec 5) :
    exec (.lsi rd imm) s = writeReg rd (imm.signExtend 16) s := rfl

theorem exec_mov_of_usable {s : State} (rd : RegNum) {rs : RegNum} (imm : BitVec 2) (h : Usable s rs) :
    exec (.mov rd rs imm) s = writeReg rd (s.reg rs + imm.setWidth 16) s := by
  simp only [exec, execMov, readReg_of_usable h]

/-- The architectural read of R15 is the link X + 1 (40_data_movement.md R135). -/
theorem exec_amv_pc (s : State) (rd : RegNum) : exec (.amv rd 15) s = writeReg rd s.pc s := by
  simp [exec, execAmv]

theorem exec_amv_of_ne {rs : RegNum} (s : State) (rd : RegNum) (h : rs ≠ 15) :
    exec (.amv rd rs) s = writeReg rd (amvValue s.cfg (archRead rs s).1) (archRead rs s).2 :=
  if_neg h

theorem exec_mvsFrom (s : State) (rd : RegNum) (g : Seg) : exec (.mvsFrom rd g) s = writeReg rd (s.seg g) s := rfl

theorem exec_mvsTo_of_usable {s : State} {g : Seg} {rd : RegNum} (hg : g ≠ .cs) (h : Usable s rd) :
    exec (.mvsTo g rd) s = .next (s.setSeg g (s.reg rd)) := by
  simp only [exec, execMvsTo, if_neg hg, readReg_of_usable h]

/-! ### The architectural read (40_data_movement.md R135) -/

/-- A register no noted instruction wrote is read as it is. -/
theorem archRead_of_not_recent {s : State} {r : RegNum} (h : ∀ e ∈ s.recent, e.reg ≠ r) :
    archRead r s = (s.reg r, s) := by
  have hnone : s.recent.filter (·.reg = r) = [] := List.filter_eq_nil_iff.2 fun e he => by simpa using h e he
  rw [archRead, hnone, List.map_nil, chooseOld_nil]

/-- The word read is the register's, or one it held before a noted write. -/
theorem archRead_mem (r : RegNum) (s : State) :
    (archRead r s).1 = s.reg r ∨ ∃ e ∈ s.recent, e.reg = r ∧ (archRead r s).1 = e.old := by
  have hmem := chooseOld_mem (s.reg r) ((s.recent.filter (·.reg = r)).map (·.old)) s
  rcases List.mem_cons.1 hmem with hcur | hold
  · exact .inl hcur
  · obtain ⟨e, he, hval⟩ := List.mem_map.1 hold
    obtain ⟨hrecent, hreg⟩ := List.mem_filter.1 he
    exact .inr ⟨e, hrecent, of_decide_eq_true hreg, hval.symm⟩

/-- A choice with an earlier value draws one free value. -/
theorem chooseOld_state_of_ne_nil {α : Type} (cur : α) {olds : List α} (s : State) (h : olds ≠ []) :
    (chooseOld cur olds s).2 = s.setDraws (s.draws + 1) := by
  cases olds with
  | nil => exact absurd rfl h
  | cons o os => rfl

theorem archRead_state_of_recent {s : State} {r : RegNum} (h : ∃ e ∈ s.recent, e.reg = r) :
    (archRead r s).2 = s.setDraws (s.draws + 1) := by
  obtain ⟨e, he, hr⟩ := h
  refine chooseOld_state_of_ne_nil _ s (List.ne_nil_of_mem (List.mem_map_of_mem (a := e) ?_))
  exact List.mem_filter.2 ⟨he, decide_eq_true hr⟩

end Sys2Proof.Safety

namespace Sys2Proof.Proofs

open Sys2Proof.Machine Sys2Proof.Safety

/-- Settles O39: LSI is the write of its sign-extended immediate. -/
theorem lsiResult : Obligations.LsiResult := by
  unfold Obligations.LsiResult
  intro s rd imm hd
  refine ⟨rfl, imm.signExtend 16, BitVec.toInt_signExtend_of_le (by decide), ?_⟩
  rw [exec_lsi]
  exact writeReg_completes s rd _ hd

/-- Settles O40: MOV is the write of the source plus the zero-extended immediate. -/
theorem movResult : Obligations.MovResult := by
  unfold Obligations.MovResult
  intro s rd rs imm _ hd hs
  refine ⟨rfl, s.reg rs + imm.setWidth 16, ?_, ?_⟩
  · rw [BitVec.toNat_add, BitVec.toNat_setWidth_of_le (by decide)]
  · rw [exec_mov_of_usable rd imm hs]
    exact writeReg_completes s rd _ hd

/-- Settles O41, by the three ways the architectural read can go. -/
theorem architecturalRead : Obligations.ArchitecturalRead := by
  unfold Obligations.ArchitecturalRead
  intro s rd rs hd
  refine ⟨?_, fun hs hnot => ?_, fun hs hrecent => ?_⟩
  · rw [exec_amv_pc]
    exact writeReg_completes s rd _ hd
  · rw [exec_amv_of_ne s rd hs, archRead_of_not_recent hnot]
    exact writeReg_completes s rd _ hd
  · obtain ⟨t, hnext, hdest, hpsw, hframe⟩ := dest_writeReg s (s.setDraws (s.draws + 1)) rd
      (amvValue s.cfg (archRead rs s).1) (fun r _ => State.setDraws_reg s _ r) rfl rfl hd
    refine ⟨(archRead rs s).1, t, archRead_mem rs s, ?_, hdest, hpsw, (coreKept_setDraws s _).trans hframe.core,
      (noStore_setDraws s _).trans hframe.store, hframe.input.platformIn, hframe.input.draws⟩
    rw [exec_amv_of_ne s rd hs, archRead_state_of_recent hrecent, hnext]

/-- Settles O42: reads segment by segment; a write is the segment's update, and CS is refused before R15 is read. -/
theorem mvsResult : Obligations.MvsResult := by
  unfold Obligations.MvsResult
  refine ⟨fun s rd g hd => ?_, fun s rd hd => ⟨?_, ?_, ?_⟩, fun s rd => rfl⟩
  · rw [exec_mvsFrom]
    cases g <;> exact writeReg_completes s rd _ hd
  all_goals
    rw [exec_mvsTo_of_usable (by decide) hd]
    rfl

/-- Settles O43: SMV is the write of a field of the inactive or of the active bank, which the view names. -/
theorem smvResult : Obligations.SmvResult := by
  unfold Obligations.SmvResult
  intro s rd hd
  have hapc : Gives (exec (.smvApc rd) s) s rd s.inactive.pc := writeReg_completes s rd _ hd
  have hapsw : Gives (exec (.smvApsw rd) s) s rd s.inactive.psw := writeReg_completes s rd _ hd
  have hacs : Gives (exec (.smvAcs rd) s) s rd s.inactive.cs := writeReg_completes s rd _ hd
  have hpsw : Gives (exec (.smvPsw rd) s) s rd s.active.psw := writeReg_completes s rd _ hd
  refine ⟨fun hv => ?_, fun hv => ?_⟩
  · have hactive : s.active = s.normal := by simp [State.active, hv]
    rw [State.inactive_of_normal hv] at hapc hapsw hacs
    rw [hactive] at hpsw
    exact ⟨hapc, hapsw, hacs, hpsw⟩
  · have hactive : s.active = s.shadow := by simp [State.active, hv]
    rw [State.inactive_of_shadow hv] at hapc hapsw hacs
    rw [hactive] at hpsw
    exact ⟨hapc, hapsw, hacs, hpsw⟩

/-- Settles O38: LDI is the write of its zero-extended immediate to R0, which is no transfer. -/
theorem ldiResult : Obligations.LdiResult := by
  unfold Obligations.LdiResult
  intro s imm
  refine ⟨rfl, imm.setWidth 16, BitVec.toNat_setWidth_of_le (by decide), ?_⟩
  rw [exec_ldi]
  exact writeReg_completes s 0 _ (fun h => absurd h (by decide))

end Sys2Proof.Proofs
end

section
/-! ## Arithmetic and logic (41_alu.md R150 to R175) -/

namespace Sys2Proof.Safety

open Sys2Proof.Machine

/-! ### The PSW after a flag write -/

/-- The PSW `q` has the four condition flags named, and the other twelve bits of `p` (41_alu.md R152). -/
structure PswFlags (p q : Word) (n z v c : Bool) : Prop where
  n : pswN q = n
  z : pswZ q = z
  v : pswV q = v
  c : pswC q = c
  rest : ∀ i, 4 ≤ i → q.getLsbD i = p.getLsbD i

theorem PswFlags.flags {s t : State} {p : Word} {n z v c : Bool} (h : PswFlags s.psw p n z v c) (ht : t.psw = p) :
    Flags s t n z v c := by
  subst ht
  exact ⟨h.n, h.z, h.v, h.c, h.rest⟩

/-- N and Z written, V and C kept: what the logic, multiply and divide instructions do (41_alu.md R152). -/
theorem pswFlags_setNZ (p : Word) (n z : Bool) :
    PswFlags p (pswSet (pswSet p 0 n) 1 z) n z (pswV p) (pswC p) := by
  have hbit : ∀ j, (pswSet (pswSet p 0 n) 1 z).getLsbD j = if j = 1 then z else if j = 0 then n else p.getLsbD j := by
    intro j
    rw [getLsbD_pswSet _ _ _ _ (by omega), getLsbD_pswSet _ _ _ _ (by omega)]
  refine ⟨hbit 0, hbit 1, hbit 2, hbit 3, fun i hi => ?_⟩
  rw [hbit, if_neg (by omega), if_neg (by omega)]

/-- All four flags written, N and Z from the result: what ADD and SUB do (41_alu.md R152, R153). -/
theorem pswFlags_setNZVC (p r : Word) (v c : Bool) :
    PswFlags p (pswSet (pswSet (pswSetNZ p r) 2 v) 3 c) r.msb (r == 0) v c := by
  have hbit := getLsbD_pswSetNZVC p r v c
  refine ⟨hbit 0, hbit 1, hbit 2, hbit 3, fun i hi => ?_⟩
  rw [hbit, if_neg (by omega), if_neg (by omega), if_neg (by omega), if_neg (by omega)]

theorem pswFlags_addOut (cfg : Params) (p a b : Word) :
    PswFlags p (addOut cfg p a b).psw (a + b).msb (a + b == 0) (addOverflow a b) (addCarry a b) :=
  pswFlags_setNZVC p (a + b) _ _

theorem pswFlags_subOut (cfg : Params) (p a b : Word) :
    PswFlags p (subOut cfg p a b).psw (a - b).msb (a - b == 0) (subOverflow a b) (subCarry cfg.subCarry a b) :=
  pswFlags_setNZVC p (a - b) _ _

theorem pswFlags_andOut (cfg : Params) (p a b : Word) :
    PswFlags p (andOut cfg p a b).psw (a &&& b).msb (a &&& b == 0) (pswV p) (pswC p) :=
  pswFlags_setNZ p _ _

theorem pswFlags_orOut (cfg : Params) (p a b : Word) :
    PswFlags p (orOut cfg p a b).psw (a ||| b).msb (a ||| b == 0) (pswV p) (pswC p) :=
  pswFlags_setNZ p _ _

theorem pswFlags_xorOut (cfg : Params) (p a b : Word) :
    PswFlags p (xorOut cfg p a b).psw (a ^^^ b).msb (a ^^^ b == 0) (pswV p) (pswC p) :=
  pswFlags_setNZ p _ _

theorem pswFlags_mulOut (cfg : Params) (p a b : Word) :
    PswFlags p (mulOut cfg p a b).psw (a * b).msb (a * b == 0) (pswV p) (pswC p) :=
  pswFlags_setNZ p _ _

/-! ### The shared ALU2 operation (41_alu.md R150, R151, R164) -/

/-- The word a second operand stands for; immediates are zero-extended (41_alu.md R150). -/
def srcValue (s : State) : Src → Word
  | .reg rs => s.reg rs
  | .imm v => v.setWidth 16

/-- A second operand can be named: a register that is usable, or any immediate. -/
def SrcUsable (s : State) : Src → Prop
  | .reg rs => Usable s rs
  | .imm _ => True

variable {s t : State} {rd rs : RegNum}

theorem readSrc_of_usable {x : Src} {k : Word → Result} (h : SrcUsable s x) : readSrc x s k = k (srcValue s x) := by
  cases x with
  | reg rs => exact readReg_of_usable h
  | imm v => rfl

/-- What reading the second operand and going on gives, it gives for the operand's value. -/
theorem readSrc_next_value {x : Src} {k : Word → Result} (h : readSrc x s k = .next t) :
    k (srcValue s x) = .next t := by
  rcases readSrc_eq_next.1 h with ⟨_, rfl, -, hk⟩ | ⟨_, rfl, hk⟩
  · exact hk
  · exact hk

theorem alu2_of_usable (f : Params → Word → Word → Word → AluOut) (w : Bool) {x : Src} (hd : Usable s rd)
    (hx : SrcUsable s x) : alu2 f w rd x s =
      if w then writeReg rd (f s.cfg s.psw (s.reg rd) (srcValue s x)).value
        (s.setPsw (f s.cfg s.psw (s.reg rd) (srcValue s x)).psw)
      else .next (s.setPsw (f s.cfg s.psw (s.reg rd) (srcValue s x)).psw) := by
  unfold alu2
  rw [readReg_of_usable hd, readSrc_of_usable hx]

/-- With w = 1 the result goes to Rd and the flags are those of the operation. -/
theorem alu2_givesFlags {f : Params → Word → Word → Word → AluOut} {x : Src} {n z v c : Bool} (hd : Usable s rd)
    (hx : SrcUsable s x) (hf : PswFlags s.psw (f s.cfg s.psw (s.reg rd) (srcValue s x)).psw n z v c) :
    GivesFlags (alu2 f true rd x s) s rd (f s.cfg s.psw (s.reg rd) (srcValue s x)).value n z v c := by
  rw [alu2_of_usable f true hd hx]
  exact givesFlags_of s _ rd _ n z v c hd hf.n hf.z hf.v hf.c hf.rest

/-- With w = 0 only the flags are written. -/
theorem alu2_flagsOnly {f : Params → Word → Word → Word → AluOut} {x : Src} {n z v c : Bool} (hd : Usable s rd)
    (hx : SrcUsable s x) (hf : PswFlags s.psw (f s.cfg s.psw (s.reg rd) (srcValue s x)).psw n z v c) :
    FlagsOnly (alu2 f false rd x s) s n z v c := by
  rw [alu2_of_usable f false hd hx]
  exact flagsOnly_of s _ n z v c hf.n hf.z hf.v hf.c hf.rest

/-- A comparison that completed wrote the PSW of its operation. -/
theorem alu2_false_psw {f : Params → Word → Word → Word → AluOut} {x : Src} (h : alu2 f false rd x s = .next t) :
    t.psw = (f s.cfg s.psw (s.reg rd) (srcValue s x)).psw := by
  have hnext := readSrc_next_value (readReg_eq_next.1 h).2
  obtain rfl := by simpa using hnext
  exact s.setPsw_psw _

/-! ### The flags of a difference as orders (41_alu.md R157) -/

/-- N differs from V exactly when the minuend is less as a signed number: without overflow the difference has the
sign of the exact one, with overflow the other. -/
theorem msb_sub_ne_subOverflow_iff (a b : Word) : (a - b).msb ≠ subOverflow a b ↔ a.toInt < b.toInt := by
  have ha := a.toInt_lt
  have ha' := a.le_toInt
  have hb := b.toInt_lt
  have hb' := b.le_toInt
  have hlt := (a - b).toInt_lt
  have hle := (a - b).le_toInt
  have hmod : (a - b).toInt % 65536 = (a.toInt - b.toInt) % 65536 := by
    rw [BitVec.toInt_sub]
    exact Int.bmod_emod
  unfold subOverflow
  rw [BitVec.msb_eq_toInt, BitVec.msb_eq_toInt, BitVec.msb_eq_toInt]
  generalize (a - b).toInt = d at hlt hle hmod ⊢
  by_cases hna : a.toInt < 0 <;> by_cases hnb : b.toInt < 0 <;> simp [hna, hnb] <;> omega

/-! ### Products and quotients as numbers (41_alu.md R166) -/

theorem product_unsigned (a b : Word) : (product false a b).toNat = a.toNat * b.toNat := by
  have hlt : a.toNat * b.toNat < 2 ^ 16 * 2 ^ 16 := Nat.mul_lt_mul'' a.isLt b.isLt
  exact Nat.mod_eq_of_lt hlt

theorem product_signed (a b : Word) : (product true a b).toInt = a.toInt * b.toInt := by
  have hle : a.toInt * b.toInt ≤ 2 ^ (16 * 2 - 2) := BitVec.toInt_mul_toInt_le
  have hge : -2 ^ (16 * 2 - 2) ≤ a.toInt * b.toInt := BitVec.le_toInt_mul_toInt
  exact BitVec.toInt_ofInt_eq_self (by decide) (by omega) (by omega)

theorem quotient_unsigned (a b : Word) : (quotient false a b).toNat = a.toNat / b.toNat :=
  Nat.mod_eq_of_lt ((Nat.div_le_self _ _).trans_lt a.isLt)

theorem remainder_unsigned (a b : Word) :
    (remainder false a b).toNat = a.toNat - (quotient false a b).toNat * b.toNat := by
  rw [quotient_unsigned, ← Nat.mod_eq_sub_div_mul]
  exact Nat.mod_eq_of_lt ((Nat.mod_le _ _).trans_lt a.isLt)

theorem quotient_signed {a b : Word} (h : ¬(a = 0x8000 ∧ b = 0xFFFF)) :
    (quotient true a b).toInt = a.toInt.tdiv b.toInt := by
  have hfits : a ≠ BitVec.intMin 16 ∨ b ≠ -1#16 := not_and_or.1 h
  calc (quotient true a b).toInt = (a.toInt.tdiv b.toInt).bmod (2 ^ 16) := BitVec.toInt_ofInt _
    _ = (a.sdiv b).toInt := (BitVec.toInt_sdiv a b).symm
    _ = a.toInt.tdiv b.toInt := BitVec.toInt_sdiv_of_ne_or_ne a b hfits

theorem remainder_eq_srem (a b : Word) : remainder true a b = a.srem b := by
  rw [← BitVec.ofInt_toInt (x := a.srem b), BitVec.toInt_srem]
  rfl

theorem remainder_signed {a b : Word} (h : ¬(a = 0x8000 ∧ b = 0xFFFF)) :
    (remainder true a b).toInt = a.toInt - (quotient true a b).toInt * b.toInt := by
  rw [remainder_eq_srem, BitVec.toInt_srem, quotient_signed h, Int.tmod_def, Int.mul_comm]

/-! ### The 32-bit multiply (41_alu.md R165, R170, R171) -/

/-- An even register is none of the transfers' R15. -/
theorem usable_of_even (s : State) (he : isEven rd = true) : Usable s rd := by
  rintro rfl
  exact absurd he (by decide)

theorem isEven_of_bit (h : rd.getLsbD 0 = false) : isEven rd = true := by rw [isEven, h]; rfl

theorem isEven_of_bit_true (h : rd.getLsbD 0 = true) : isEven rd = false := by rw [isEven, h]; rfl

theorem multiply32_of_even (w : Bool) (he : isEven rd = true) (hs : Usable s rs) :
    multiply32 w rd rs s = multiplyInto w rd (product s.cfg.mulDivSigned (s.reg rd) (s.reg rs)) s := by
  unfold multiply32
  rw [if_pos he, readReg_of_usable (usable_of_even s he), readReg_of_usable hs]

theorem multiply32_of_odd (w : Bool) (rs : RegNum) (s : State) (ho : isEven rd = false) :
    multiply32 w rd rs s = .refused .oddPair := by simp [multiply32, ho]

theorem divide32_of_odd (w : Bool) (rs : RegNum) (s : State) (ho : isEven rd = false) :
    divide32 w rd rs s = .refused .oddPair := by simp [divide32, ho]

/-- MUL32: the pair receives the product's halves, N and Z are of the 32 bits. -/
theorem multiplyInto_pair (p : BitVec 32) (he : isEven rd = true) (hd : Usable s (rd + 1)) :
    ∃ t, multiplyInto true rd p s = .next t ∧ DestPair rd (p.extractLsb' 0 16) (p.extractLsb' 16 16) s t ∧
      Flags s t p.msb (p == 0) (pswV s.psw) (pswC s.psw) ∧ Frame s t := by
  have hflags : PswFlags s.psw (pswSetNZ32 s.psw p) p.msb (p == 0) (pswV s.psw) (pswC s.psw) := pswFlags_setNZ _ _ _
  obtain ⟨t, hnext, hdest, hpsw, hframe⟩ := writePair_completes s (s.setPsw (pswSetNZ32 s.psw p)) rd
    (p.extractLsb' 0 16) (p.extractLsb' 16 16) he (fun r _ => s.setPsw_reg _ r) rfl rfl hd
  exact ⟨t, hnext, hdest, hflags.flags (hpsw.trans (s.setPsw_psw _)), (frame_setPsw s _).trans hframe⟩

/-- MNW32: only N and Z of the 32 bits. -/
theorem multiplyInto_flagsOnly (rd : RegNum) (p : BitVec 32) (s : State) :
    FlagsOnly (multiplyInto false rd p s) s p.msb (p == 0) (pswV s.psw) (pswC s.psw) := by
  have hflags : PswFlags s.psw (pswSetNZ32 s.psw p) p.msb (p == 0) (pswV s.psw) (pswC s.psw) := pswFlags_setNZ _ _ _
  exact flagsOnly_of s _ _ _ _ _ hflags.n hflags.z hflags.v hflags.c hflags.rest

/-! ### The divides (41_alu.md R165 to R167, R172 to R175)

The three things a division can give, and, for whatever it gives, what the four forms of the instruction do. -/

/-- By zero: four free values (41_alu.md R167, log 15). -/
theorem divide_zero (a : Word) (s : State) : divide a 0 s =
    (⟨Config.freeWord s.draws, Config.freeWord (s.draws + 1), Config.freeBit (s.draws + 2),
      Config.freeBit (s.draws + 3)⟩, s.setDraws (s.draws + 4)) := rfl

/-- Signed 0x8000 / 0xFFFF: a free quotient, its own N and Z, remainder 0 (41_alu.md R166, log 16). -/
theorem divide_overflow (h : s.cfg.mulDivSigned = true) : divide 0x8000 0xFFFF s =
    (⟨Config.freeWord s.draws, 0, (Config.freeWord s.draws).msb, Config.freeWord s.draws == 0⟩,
      s.setDraws (s.draws + 1)) := by
  have hopen : quotientOpen true 0x8000 0xFFFF = true := by decide
  have hrem : remainder true 0x8000 0xFFFF = 0 := by decide
  unfold divide
  rw [if_neg (by decide), h, if_pos hopen, hrem]
  rfl

/-- Every other division: the quotient and the remainder, nothing drawn (41_alu.md R166). -/
theorem divide_defined {a b : Word} (hb : b ≠ 0) (h : ¬(s.cfg.mulDivSigned = true ∧ a = 0x8000 ∧ b = 0xFFFF)) :
    divide a b s = (⟨quotient s.cfg.mulDivSigned a b, remainder s.cfg.mulDivSigned a b,
      (quotient s.cfg.mulDivSigned a b).msb, quotient s.cfg.mulDivSigned a b == 0⟩, s.setDraws (s.draws + 0)) := by
  have hopen : ¬quotientOpen s.cfg.mulDivSigned a b = true := by simpa [quotientOpen, and_assoc] using h
  unfold divide
  rw [if_neg hb, if_neg hopen]
  rfl

/-- What every form of a division that gives `o` and draws `k` free values leaves beside its registers: N and Z of
`o`, `k` draws, nothing else changed. -/
structure Divided (o : DivOut) (k : Nat) (s t : State) : Prop where
  flags : Flags s t o.n o.z (pswV s.psw) (pswC s.psw)
  core : CoreKept s t
  store : NoStore s t
  platformIn : t.platformIn = s.platformIn
  draws : t.draws = s.draws + k

/-- A division that drew nothing has the frame of any other ALU instruction. -/
theorem Divided.frame {o : DivOut} (h : Divided o 0 s t) : Frame s t := ⟨h.core, h.store, ⟨h.platformIn, h.draws⟩⟩

theorem Divided.clauses {o : DivOut} {k : Nat} (h : Divided o k s t) :
    Flags s t o.n o.z (pswV s.psw) (pswC s.psw) ∧ CoreKept s t ∧ NoStore s t ∧ t.platformIn = s.platformIn ∧
      t.draws = s.draws + k :=
  ⟨h.flags, h.core, h.store, h.platformIn, h.draws⟩

/-- What an update of the registers alone leaves after the draws and the flags of a division. -/
theorem divided_of_frame {o : DivOut} {k : Nat} (hpsw : t.psw = (divFlags o (s.setDraws (s.draws + k))).psw)
    (hframe : Frame (divFlags o (s.setDraws (s.draws + k))) t) : Divided o k s t := by
  have hset : Frame (s.setDraws (s.draws + k)) t := (frame_setPsw _ _).trans hframe
  refine ⟨?_, (coreKept_setDraws s _).trans hset.core, (noStore_setDraws s _).trans hset.store,
    hset.input.platformIn, hset.input.draws⟩
  exact (pswFlags_setNZ s.psw o.n o.z).flags (hpsw.trans (State.setPsw_psw _ _))

section Forms

variable {o : DivOut} {k : Nat}

theorem divFlags_noDest (o : DivOut) (s : State) (n : Nat) : NoDest s (divFlags o (s.setDraws n)) :=
  noDest_setPsw (s.setDraws n) _

theorem divide16_of_usable (w : Bool) (hd : Usable s rd) (hs : Usable s rs)
    (h : divide (s.reg rd) (s.reg rs) s = (o, s.setDraws (s.draws + k))) :
    divide16 w rd rs s = if w then writeReg rd o.quo (divFlags o (s.setDraws (s.draws + k)))
      else .next (divFlags o (s.setDraws (s.draws + k))) := by
  unfold divide16
  rw [readReg_of_usable hd, readReg_of_usable hs, h]

theorem divide32_of_even (w : Bool) (he : isEven rd = true) (hs : Usable s rs)
    (h : divide (s.reg rd) (s.reg rs) s = (o, s.setDraws (s.draws + k))) :
    divide32 w rd rs s = if w then writePair rd o.quo o.rem (divFlags o (s.setDraws (s.draws + k)))
      else .next (divFlags o (s.setDraws (s.draws + k))) := by
  unfold divide32
  rw [if_pos he, readReg_of_usable (usable_of_even s he), readReg_of_usable hs, h]

/-- DIV writes the quotient (41_alu.md R172). -/
theorem exec_div_divided (hd : Usable s rd) (hs : Usable s rs)
    (h : divide (s.reg rd) (s.reg rs) s = (o, s.setDraws (s.draws + k))) :
    ∃ t, exec (.div rd rs) s = .next t ∧ Dest rd o.quo s t ∧ Divided o k s t := by
  obtain ⟨hregs, hrecent⟩ := (divFlags_noDest o s (s.draws + k)).1
  obtain ⟨t, hnext, hdest, hpsw, hframe⟩ :=
    dest_writeReg s (divFlags o (s.setDraws (s.draws + k))) rd o.quo hregs rfl hrecent hd
  exact ⟨t, (divide16_of_usable true hd hs h).trans hnext, hdest, divided_of_frame hpsw hframe⟩

/-- DNW writes no register (41_alu.md R173). -/
theorem exec_dnw_divided (hd : Usable s rd) (hs : Usable s rs)
    (h : divide (s.reg rd) (s.reg rs) s = (o, s.setDraws (s.draws + k))) :
    ∃ t, exec (.dnw rd rs) s = .next t ∧ NoDest s t ∧ Divided o k s t :=
  ⟨_, divide16_of_usable false hd hs h, divFlags_noDest o s _, divided_of_frame rfl (.refl _)⟩

/-- DIV32 writes quotient and remainder to the pair (41_alu.md R174). -/
theorem exec_div32_divided (he : isEven rd = true) (hd : Usable s (rd + 1)) (hs : Usable s rs)
    (h : divide (s.reg rd) (s.reg rs) s = (o, s.setDraws (s.draws + k))) :
    ∃ t, exec (.div32 rd rs) s = .next t ∧ DestPair rd o.quo o.rem s t ∧ Divided o k s t := by
  obtain ⟨hregs, hrecent⟩ := (divFlags_noDest o s (s.draws + k)).1
  obtain ⟨t, hnext, hdest, hpsw, hframe⟩ :=
    writePair_completes s (divFlags o (s.setDraws (s.draws + k))) rd o.quo o.rem he hregs rfl hrecent hd
  exact ⟨t, (divide32_of_even true he hs h).trans hnext, hdest, divided_of_frame hpsw hframe⟩

/-- DNW32 writes no register (41_alu.md R175). -/
theorem exec_dnw32_divided (he : isEven rd = true) (hs : Usable s rs)
    (h : divide (s.reg rd) (s.reg rs) s = (o, s.setDraws (s.draws + k))) :
    ∃ t, exec (.dnw32 rd rs) s = .next t ∧ NoDest s t ∧ Divided o k s t :=
  ⟨_, divide32_of_even false he hs h, divFlags_noDest o s _, divided_of_frame rfl (.refl _)⟩

end Forms

/-- The signed and the unsigned reading of the quotient and the remainder of a division that is defined. -/
theorem quotient_remainder_reading {a b : Word} (sg : Bool) (h : ¬(sg = true ∧ a = 0x8000 ∧ b = 0xFFFF)) :
    (sg = false → (quotient sg a b).toNat = a.toNat / b.toNat ∧
      (remainder sg a b).toNat = a.toNat - (quotient sg a b).toNat * b.toNat) ∧
    (sg = true → (quotient sg a b).toInt = a.toInt.tdiv b.toInt ∧
      (remainder sg a b).toInt = a.toInt - (quotient sg a b).toInt * b.toInt) := by
  refine ⟨?_, ?_⟩
  · rintro rfl
    exact ⟨quotient_unsigned a b, remainder_unsigned a b⟩
  · rintro rfl
    have hfits : ¬(a = 0x8000 ∧ b = 0xFFFF) := fun e => h ⟨rfl, e⟩
    exact ⟨quotient_signed hfits, remainder_signed hfits⟩

end Sys2Proof.Safety

namespace Sys2Proof.Proofs

open Sys2Proof.Machine Sys2Proof.Safety

/-- Settles O44: both instructions are the shared operation on the sum. -/
theorem addResult : Obligations.AddResult := by
  unfold Obligations.AddResult
  rintro s rd rs imm _ _ _ hd rfl rfl rfl
  have hflags := pswFlags_addOut s.cfg s.psw (s.reg rd)
  exact ⟨fun hs => alu2_givesFlags (x := .reg rs) hd hs (hflags _),
    alu2_givesFlags (x := .imm imm) hd trivial (hflags _),
    fun hs => alu2_flagsOnly (x := .reg rs) hd hs (hflags _),
    alu2_flagsOnly (x := .imm imm) hd trivial (hflags _)⟩

/-- Settles O45: both instructions are the shared operation on the difference. -/
theorem subResult : Obligations.SubResult := by
  unfold Obligations.SubResult
  rintro s rd rs imm _ _ _ carry hd rfl rfl rfl hcarry
  have hc : ∀ x, subCarry s.cfg.subCarry (s.reg rd) x = carry x := fun x => (hcarry x).symm
  have hflags : ∀ x, PswFlags s.psw (subOut s.cfg s.psw (s.reg rd) x).psw (s.reg rd - x).msb (s.reg rd - x == 0)
      (subOverflow (s.reg rd) x) (carry x) := fun x => hc x ▸ pswFlags_subOut s.cfg s.psw (s.reg rd) x
  exact ⟨fun hs => alu2_givesFlags (x := .reg rs) hd hs (hflags _),
    alu2_givesFlags (x := .imm imm) hd trivial (hflags _),
    fun hs => alu2_flagsOnly (x := .reg rs) hd hs (hflags _),
    alu2_flagsOnly (x := .imm imm) hd trivial (hflags _)⟩

/-- Settles O46: the flags of the difference, read as orders of the operands. -/
theorem compareOrders : Obligations.CompareOrders := by
  unfold Obligations.CompareOrders
  intro s t rd rs imm i b hmem hborrow h
  obtain ⟨x, rfl, halu⟩ : ∃ x, b = srcValue s x ∧ alu2 subOut false rd x s = .next t := by
    rcases List.mem_cons.1 hmem with hreg | himm
    · obtain ⟨rfl, rfl⟩ := Prod.mk.inj hreg
      exact ⟨.reg rs, rfl, h⟩
    · obtain ⟨rfl, rfl⟩ := Prod.mk.inj (List.mem_singleton.1 himm)
      exact ⟨.imm imm, rfl, h⟩
  have hflags := pswFlags_subOut s.cfg s.psw (s.reg rd) (srcValue s x)
  rw [alu2_false_psw halu, hflags.n, hflags.z, hflags.v, hflags.c, hborrow]
  exact ⟨beq_iff_eq.trans sub_eq_zero, decide_eq_true_iff, msb_sub_ne_subOverflow_iff _ _⟩

/-- Settles O47: the six instructions are the shared operation on three bitwise functions. -/
theorem logicResult : Obligations.LogicResult := by
  unfold Obligations.LogicResult
  rintro s rd rs imm _ _ _ hd rfl rfl rfl
  have hand := pswFlags_andOut s.cfg s.psw (s.reg rd)
  have hor := pswFlags_orOut s.cfg s.psw (s.reg rd)
  have hxor := pswFlags_xorOut s.cfg s.psw (s.reg rd)
  refine ⟨fun hs => ⟨?_, ?_, ?_, ?_, ?_, ?_⟩, ?_, ?_, ?_, ?_, ?_, ?_⟩
  · exact alu2_givesFlags (x := .reg rs) hd hs (hand _)
  · exact alu2_flagsOnly (x := .reg rs) hd hs (hand _)
  · exact alu2_givesFlags (x := .reg rs) hd hs (hor _)
  · exact alu2_flagsOnly (x := .reg rs) hd hs (hor _)
  · exact alu2_givesFlags (x := .reg rs) hd hs (hxor _)
  · exact alu2_flagsOnly (x := .reg rs) hd hs (hxor _)
  · exact alu2_givesFlags (x := .imm imm) hd trivial (hand _)
  · exact alu2_flagsOnly (x := .imm imm) hd trivial (hand _)
  · exact alu2_givesFlags (x := .imm imm) hd trivial (hor _)
  · exact alu2_flagsOnly (x := .imm imm) hd trivial (hor _)
  · exact alu2_givesFlags (x := .imm imm) hd trivial (hxor _)
  · exact alu2_flagsOnly (x := .imm imm) hd trivial (hxor _)

/-- Settles O48: the product of words is the low half of the product in either reading. -/
theorem mulResult : Obligations.MulResult := by
  unfold Obligations.MulResult
  intro s rd rs hd hs
  have hflags := pswFlags_mulOut s.cfg s.psw (s.reg rd) (s.reg rs)
  refine ⟨s.reg rd * s.reg rs, BitVec.toNat_mul _ _, ?_, alu2_givesFlags (x := .reg rs) hd hs hflags,
    alu2_flagsOnly (x := .reg rs) hd hs hflags⟩
  rw [BitVec.ofInt_mul, BitVec.ofInt_toInt, BitVec.ofInt_toInt]

/-- Settles O49: the exact product fits in 32 bits in either reading. -/
theorem wideMultiplyResult : Obligations.WideMultiplyResult := by
  unfold Obligations.WideMultiplyResult
  refine ⟨fun s rd rs hbit hs => ?_, fun s rd rs hbit => ?_⟩
  · have he := isEven_of_bit hbit
    refine ⟨product s.cfg.mulDivSigned (s.reg rd) (s.reg rs), fun hu => ?_, fun hsg => ?_, fun hd => ?_, ?_⟩
    · rw [hu, product_unsigned]
    · rw [hsg, product_signed]
    · obtain ⟨t, hnext, hrest⟩ := multiplyInto_pair (product s.cfg.mulDivSigned (s.reg rd) (s.reg rs)) he hd
      exact ⟨t, (multiply32_of_even true he hs).trans hnext, hrest⟩
    · obtain ⟨t, hnext, hrest⟩ := multiplyInto_flagsOnly rd (product s.cfg.mulDivSigned (s.reg rd) (s.reg rs)) s
      exact ⟨t, (multiply32_of_even false he hs).trans hnext, hrest⟩
  · have ho := isEven_of_bit_true hbit
    exact ⟨multiply32_of_odd true rs s ho, multiply32_of_odd false rs s ho⟩

/-- Settles O50: the division draws nothing, and its quotient and remainder are those of the reading. -/
theorem divideResult : Obligations.DivideResult := by
  unfold Obligations.DivideResult
  refine ⟨?_, fun s rd rs hbit => ?_⟩
  · rintro s rd rs _ _ hd hs rfl rfl hb hopen
    have hdiv := divide_defined hb hopen
    obtain ⟨hunsigned, hsigned⟩ := quotient_remainder_reading s.cfg.mulDivSigned hopen
    refine ⟨_, _, hunsigned, hsigned, ?_, ?_, fun hbit hd' => ?_, fun hbit => ?_⟩
    · obtain ⟨t, hnext, hdest, hdone⟩ := exec_div_divided hd hs hdiv
      exact ⟨t, hnext, hdest, hdone.flags, hdone.frame⟩
    · obtain ⟨t, hnext, hdest, hdone⟩ := exec_dnw_divided hd hs hdiv
      exact ⟨t, hnext, hdest, hdone.flags, hdone.frame⟩
    · obtain ⟨t, hnext, hdest, hdone⟩ := exec_div32_divided (isEven_of_bit hbit) hd' hs hdiv
      exact ⟨t, hnext, hdest, hdone.flags, hdone.frame⟩
    · obtain ⟨t, hnext, hdest, hdone⟩ := exec_dnw32_divided (isEven_of_bit hbit) hs hdiv
      exact ⟨t, hnext, hdest, hdone.flags, hdone.frame⟩
  · have ho := isEven_of_bit_true hbit
    exact ⟨divide32_of_odd true rs s ho, divide32_of_odd false rs s ho⟩

/-- Settles O51: what the two open divisions draw; the four forms do with it what they do with any division. -/
theorem divideOpenValues : Obligations.DivideOpenValues := by
  unfold Obligations.DivideOpenValues
  rintro s rd rs _ _ hd hs rfl rfl hopen
  obtain ⟨o, k, hdiv, hvalues⟩ : ∃ o k, divide (s.reg rd) (s.reg rs) s = (o, s.setDraws (s.draws + k)) ∧
      (s.reg rs = 0xFFFF → o.rem = 0 ∧ o.n = o.quo.msb ∧ o.z = (o.quo == 0)) := by
    rcases hopen with hzero | ⟨hsg, ha, hb⟩
    · rw [hzero]
      exact ⟨_, 4, divide_zero _ s, fun e => absurd e (by decide)⟩
    · rw [ha, hb]
      exact ⟨_, 1, divide_overflow hsg, fun _ => ⟨rfl, rfl, rfl⟩⟩
  refine ⟨o.quo, o.rem, o.n, o.z, k, hvalues, ?_, ?_, fun hbit hd' => ?_, fun hbit => ?_⟩
  · obtain ⟨t, hnext, hdest, hdone⟩ := exec_div_divided hd hs hdiv
    exact ⟨t, hnext, hdest, hdone.clauses⟩
  · obtain ⟨t, hnext, hdest, hdone⟩ := exec_dnw_divided hd hs hdiv
    exact ⟨t, hnext, hdest, hdone.clauses⟩
  · obtain ⟨t, hnext, hdest, hdone⟩ := exec_div32_divided (isEven_of_bit hbit) hd' hs hdiv
    exact ⟨t, hnext, hdest, hdone.clauses⟩
  · obtain ⟨t, hnext, hdest, hdone⟩ := exec_dnw32_divided (isEven_of_bit hbit) hs hdiv
    exact ⟨t, hnext, hdest, hdone.clauses⟩

end Sys2Proof.Proofs
end

section
/-! ## Shifts and rotates (42_shift.md R180 to R190) -/

namespace Sys2Proof.Safety

open Sys2Proof.Machine

/-! ### The carry-out and the flags (42_shift.md R181, R182) -/

theorem carryOut_getD_eq_shiftC (nm : ShiftNumerics) (n : Nat) (last edge old : Bool) :
    (carryOut nm n last edge).getD old = shiftC nm n last edge old := by
  rw [carryOut_getD, shiftC]
  by_cases hn : n = 0
  · rw [if_pos hn, if_neg (not_not.2 hn)]
    cases nm.zeroFlags <;> rfl
  · rw [if_neg hn, if_pos hn]

theorem leftCarry_getD (cfg : Params) (a : Word) (n : Nat) (old : Bool) :
    (leftCarry cfg a n).getD old = shiftC cfg.shiftNumerics n (a.getLsbD (16 - n)) a.msb old := by
  rw [leftCarry, carryOut_getD_eq_shiftC, BitVec.msb_eq_getLsbD_last]

theorem rightCarry_getD (cfg : Params) (a : Word) (n : Nat) (old : Bool) :
    (rightCarry cfg a n).getD old = shiftC cfg.shiftNumerics n (a.getLsbD (n - 1)) (a.getLsbD 0) old :=
  carryOut_getD_eq_shiftC ..

theorem rotateCarry_getD (cfg : Params) (a : Word) (n : Nat) (old : Bool) :
    (rotateCarry cfg a n).getD old =
      if cfg.shiftNumerics.rotateCarry then shiftC cfg.shiftNumerics n (a.getLsbD (n - 1)) (a.getLsbD 0) old
      else old := by
  unfold rotateCarry
  split
  · exact rightCarry_getD cfg a n old
  · rfl

/-- Only a count of 0 can leave N and Z, and only where the parameter says so. -/
theorem shiftWritesNZ_eq_false_iff {cfg : Params} {n : Nat} :
    shiftWritesNZ cfg n = false ↔ n = 0 ∧ cfg.shiftNumerics.zeroFlags = .flagsKept := by
  simp [shiftWritesNZ]

theorem pswFlags_pswShift (nz : Bool) (p : Word) (o : ShiftOut) :
    PswFlags p (pswShift nz p o) (if nz then o.value.msb else pswN p) (if nz then o.value == 0 else pswZ p) (pswV p)
      (o.carry.getD (pswC p)) := by
  refine ⟨pswN_pswShift nz p o, pswZ_pswShift nz p o, pswV_pswShift nz p o, pswC_pswShift nz p o, fun i hi => ?_⟩
  rw [getLsbD_pswShift, if_neg (by omega), if_neg (by omega), if_neg (by omega)]

/-- The shared operation completes with what `f` computes: its value in Rd, N and Z of that value where the count writes
them, its carry where it has one. -/
theorem shiftOp_givesShift {f : Params → Bool → Word → Nat → ShiftOut} {rd : RegNum} {count : BitVec 3} {s : State}
    {v : Word} {c : Bool} (hd : Usable s rd)
    (hvalue : (f s.cfg (pswC s.psw) (s.reg rd) count.toNat).value = v)
    (hcarry : (f s.cfg (pswC s.psw) (s.reg rd) count.toNat).carry.getD (pswC s.psw) = c) :
    GivesShift (shiftOp f rd count s) s rd count.toNat v c := by
  have hflags := pswFlags_pswShift (shiftWritesNZ s.cfg count.toNat) s.psw
    (f s.cfg (pswC s.psw) (s.reg rd) count.toNat)
  rw [hvalue, hcarry] at hflags
  have hgives := givesFlags_of s _ rd v _ _ _ _ hd hflags.n hflags.z hflags.v hflags.c hflags.rest
  unfold shiftOp GivesShift
  rw [readReg_of_usable hd, hvalue]
  split
  next hkept => rwa [shiftWritesNZ_eq_false_iff.2 hkept] at hgives ⊢
  next hwritten =>
    have hnz : shiftWritesNZ s.cfg count.toNat = true :=
      eq_true_of_ne_false (mt shiftWritesNZ_eq_false_iff.1 hwritten)
    rwa [hnz] at hgives ⊢

/-! ### The carry-in and the shifted values (42_shift.md R181, R183 to R190) -/

theorem bitAt_eq_shiftLeft (c : Bool) (i : Nat) : bitAt c i = (if c then (1 : Word) else 0) <<< i := by
  cases c
  · exact (BitVec.zero_shiftLeft i).symm
  · rfl

theorem carryIn_eq_shiftCin (cfg : Params) (c : Bool) (n : Nat) :
    carryIn cfg c n = shiftCin cfg.shiftNumerics n (if c then 1 else 0) := by
  unfold carryIn shiftCin
  rw [bitAt_eq_shiftLeft, bitAt_eq_shiftLeft]
  cases cfg.shiftNumerics.carryInPlace <;> rfl

/-- The arithmetic shift right is the floor division: the one word with that signed value (42_shift.md R187). -/
theorem eq_sshiftRight_of_toInt {a x : Word} {n : Nat} (h : x.toInt = a.toInt / 2 ^ n) : a.sshiftRight n = x := by
  apply BitVec.eq_of_toInt_eq
  rw [BitVec.toInt_sshiftRight, Int.shiftRight_eq_div_pow, h]
  norm_cast

/-- Below the word's width the rotation is the two shifts ORed (42_shift.md R189). -/
theorem rotateRight_count (a : Word) (count : BitVec 3) :
    a.rotateRight count.toNat = a >>> count.toNat ||| a <<< (16 - count.toNat) :=
  BitVec.rotateRight_eq_rotateRightAux_of_lt (by omega)

/-- ROC is the rotation with the carry-in ORed to it (42_shift.md R190). -/
theorem rocOut_value (cfg : Params) (c : Bool) (a : Word) (count : BitVec 3) :
    (rocOut cfg c a count.toNat).value = a.rotateRight count.toNat ||| carryIn cfg c count.toNat := by
  rw [rotateRight_count, rocOut, BitVec.or_assoc, BitVec.or_comm (carryIn ..), BitVec.or_assoc]

end Sys2Proof.Safety

namespace Sys2Proof.Proofs

open Sys2Proof.Machine Sys2Proof.Safety

/-- Settles O52: the three are the shared operation, with the carry-out of a left or of a right shift. -/
theorem shiftResult : Obligations.ShiftResult := by
  unfold Obligations.ShiftResult
  rintro s rd count _ _ _ _ hd rfl rfl rfl rfl
  refine ⟨⟨s.reg rd <<< count.toNat, ?_, ?_⟩, ⟨_, rfl, ?_⟩, ⟨s.reg rd >>> count.toNat, ?_, ?_⟩⟩
  · rw [BitVec.toNat_shiftLeft, Nat.shiftLeft_eq]
  · exact shiftOp_givesShift (f := slOut) hd rfl (leftCarry_getD ..)
  · refine shiftOp_givesShift (f := slcOut) hd ?_ (leftCarry_getD ..)
    rw [← bitAt_eq_shiftLeft, slcOut]
  · rw [BitVec.toNat_ushiftRight, Nat.shiftRight_eq_div_pow]
  · exact shiftOp_givesShift (f := srOut) hd rfl (rightCarry_getD ..)

/-- Settles O53: the word with the floor quotient's value is the arithmetic shift; the carry-in is ORed to it. -/
theorem carryAndArithmeticShiftResult : Obligations.CarryAndArithmeticShiftResult := by
  unfold Obligations.CarryAndArithmeticShiftResult
  rintro s rd count _ _ _ x _ _ hd rfl rfl rfl rfl hx rfl
  obtain rfl := eq_sshiftRight_of_toInt hx
  rw [← carryIn_eq_shiftCin]
  exact ⟨shiftOp_givesShift (f := srcOut) hd rfl (rightCarry_getD ..),
    shiftOp_givesShift (f := sraOut) hd rfl (rightCarry_getD ..),
    shiftOp_givesShift (f := sacOut) hd rfl (rightCarry_getD ..)⟩

/-- Settles O54: the rotation is two shifts ORed, and the carry-in may be ORed last. -/
theorem rotateResult : Obligations.RotateResult := by
  unfold Obligations.RotateResult
  rintro s rd count _ _ _ _ _ hd rfl rfl rfl rfl rfl
  rw [← carryIn_eq_shiftCin]
  exact ⟨shiftOp_givesShift (f := rorOut) hd (rotateRight_count _ _).symm (rotateCarry_getD ..),
    shiftOp_givesShift (f := rocOut) hd (rocOut_value ..) (rotateCarry_getD ..)⟩

end Sys2Proof.Proofs
end

section
/-! ## Single-operand instructions (43_single_operand.md R200 to R204) -/

namespace Sys2Proof.Safety

open Sys2Proof.Machine

/-! ### The shared operation (43_single_operand.md R200) -/

/-- No flag is among the effects: the one write is that of the result (43_single_operand.md R204). -/
theorem single_gives (f : Word → Word) {rx : RegNum} {s : State} (hx : Usable s rx) :
    Gives (single f rx s) s rx (f (s.reg rx)) := by
  unfold single
  rw [readReg_of_usable hx]
  exact writeReg_completes s rx _ hx

/-! ### The three results (43_single_operand.md R201 to R203) -/

/-- The two shifts ORed are the bytes exchanged: bits 7:0 come from the right shift, bits 15:8 from the left. -/
theorem swapBytes_eq_append (a : Word) : swapBytes a = a.extractLsb' 0 8 ++ a.extractLsb' 8 8 := by
  rw [swapBytes]
  refine BitVec.eq_of_getLsbD_eq fun i hi => ?_
  rw [BitVec.getLsbD_append, BitVec.getLsbD_or, BitVec.getLsbD_shiftLeft, BitVec.getLsbD_ushiftRight]
  by_cases hlow : i < 8
  · simp [hlow, hi]
  · have hout : a.getLsbD (8 + i) = false := BitVec.getLsbD_of_ge a _ (by omega)
    simp [hlow, hi, hout, show i - 8 < 8 by omega]

theorem getLsbD_invert (a : Word) {j : Nat} (hj : j < 16) : (invert a).getLsbD j = !a.getLsbD j := by
  have hones : (0xFFFF#16).getLsbD j = true := (BitVec.getLsbD_allOnes ..).trans (decide_eq_true hj)
  rw [invert, BitVec.getLsbD_xor, hones, Bool.xor_true]

theorem negate_eq_neg (a : Word) : negate a = -a := BitVec.zero_sub a

theorem toNat_negate (a : Word) : (negate a).toNat = (2 ^ 16 - a.toNat) % 2 ^ 16 := by
  rw [negate_eq_neg, BitVec.toNat_neg]

end Sys2Proof.Safety

namespace Sys2Proof.Proofs

open Sys2Proof.Machine Sys2Proof.Safety

/-- Settles O55: the three are the shared operation, each with its own function of the word read. -/
theorem singleOperandResult : Obligations.SingleOperandResult := by
  unfold Obligations.SingleOperandResult
  rintro s rx _ hx rfl
  exact ⟨⟨swapBytes (s.reg rx), swapBytes_eq_append _, single_gives swapBytes hx⟩,
    ⟨invert (s.reg rx), fun _ hj => getLsbD_invert _ hj, single_gives invert hx⟩,
    ⟨negate (s.reg rx), toNat_negate _, single_gives negate hx⟩⟩

end Sys2Proof.Proofs
end

section
/-! ## Memory access: the implicit segment, loads and stores (44_memory_access.md R211 to R218) -/

namespace Sys2Proof.Safety

open Sys2Proof.Machine

/-! ### The membership test of one selector (44_memory_access.md R212, R213) -/

/-- The test of `implicitSeg` on one selector: selector 0 has no members; none where the pair is undecided. -/
def setTest (odd : DualPairOdd) (sel : RegNum) (dual : Bool) (rb : RegNum) : Option Bool :=
  if sel = 0 then some false else inSelector odd sel dual rb

/-- The stack set is asked first, the extra set only where the stack set's answer is no. -/
theorem implicitSeg_of_ne_zero (s : State) {rb : RegNum} (h : rb ≠ 0) :
    implicitSeg s rb =
      (setTest s.cfg.dualPairOdd (pswSR s.psw) (pswDS s.psw) rb).bind fun inStack =>
        if inStack then some Seg.ss
        else (setTest s.cfg.dualPairOdd (pswER s.psw) (pswDE s.psw) rb).map fun inExtra =>
          if inExtra then Seg.es else Seg.ds := by
  simp only [implicitSeg, if_neg h, ← setTest.eq_def]
  rcases setTest s.cfg.dualPairOdd (pswSR s.psw) (pswDS s.psw) rb with _ | _ | _
  case some.false => rcases setTest s.cfg.dualPairOdd (pswER s.psw) (pswDE s.psw) rb with _ | _ | _ <;> rfl
  all_goals rfl

@[simp] theorem implicitSeg_zero (s : State) : implicitSeg s 0 = some .ds := rfl

theorem ne_sub_one (sel : RegNum) : sel ≠ sel - 1#4 := by revert sel; decide

section Selector

variable {odd : DualPairOdd} {sel : RegNum} {dual : Bool} {rb : RegNum}

theorem setTest_eq_some_true_iff : setTest odd sel dual rb = some true ↔ InSet odd sel dual rb := by
  unfold setTest inSelector InSet
  by_cases hzero : sel = 0#4
  · simp [hzero]
  by_cases hself : rb = sel
  · simp [hzero, hself]
  cases dual
  case false => simp [hzero, hself]
  case true =>
    cases hbit : sel.getLsbD 0
    case false => simp [hzero, hself]
    case true =>
      cases odd
      case refuse => by_cases hnear : rb = sel - 1#4 ∨ rb = sel + 1#4 <;> simp [hzero, hself, hnear]
      all_goals simp [hzero, hself]

theorem setTest_eq_none_iff : setTest odd sel dual rb = none ↔ SetRefused odd sel dual rb := by
  unfold setTest inSelector SetRefused
  by_cases hzero : sel = 0#4
  · simp [hzero]
  by_cases hself : rb = sel
  · subst hself
    simp [hzero, ne_sub_one rb]
  cases dual
  case false => simp [hself]
  case true =>
    cases hbit : sel.getLsbD 0
    case false => simp [hzero, hself]
    case true =>
      cases odd
      case refuse => by_cases hnear : rb = sel - 1#4 ∨ rb = sel + 1#4 <;> simp [hzero, hself, hnear]
      all_goals simp [hzero, hself]

theorem setTest_eq_some_false (hin : ¬InSet odd sel dual rb) (href : ¬SetRefused odd sel dual rb) :
    setTest odd sel dual rb = some false := by
  rw [← setTest_eq_some_true_iff] at hin
  rw [← setTest_eq_none_iff] at href
  rcases h : setTest odd sel dual rb with _ | _ | _
  · exact absurd h href
  · rfl
  · exact absurd h hin

end Selector

/-! ### The address of LD, ST, LDS and STS (44_memory_access.md R211, R216, R217) -/

/-- An undecided pair leaves LD and ST without a segment (44_memory_access.md R213). -/
theorem implicitAddr_of_undecided {s : State} {rb : RegNum} (off : BitVec 5) (k : PhysAddr → Result)
    (hb : Usable s rb) (h : implicitSeg s rb = none) : implicitAddr rb off s k = .refused .oddDualPair := by
  simp only [implicitAddr, readReg_of_usable hb, h]

/-- ST and STS are one store of the register's value at the address they name, whether it completes or not
(44_memory_access.md R215, R217). -/
theorem exec_of_storesTo {i : Instr} {s : State} {rd rb : RegNum} {a : PhysAddr} (hi : StoresTo i s rd rb a)
    (hd : Usable s rd) (hb : Usable s rb) : exec i s = storeWord a (s.reg rd) s := by
  rcases hi with ⟨off, g, rfl, hg, rfl⟩ | ⟨g, rfl, rfl⟩
  · simp only [exec, execSt, implicitAddr, storeFrom, readReg_of_usable hb, readReg_of_usable hd, hg, effectiveOffset]
  · simp only [exec, execSts, explicitAddr, storeFrom, readReg_of_usable hb, readReg_of_usable hd]

/-! ### The load (44_memory_access.md R214, R216) -/

theorem noDest_loadWord (a : PhysAddr) (s : State) : NoDest s (loadWord a s).2 := by
  rcases loadWord_state a s with h | h | ⟨ws, h⟩ <;> rw [h] <;> exact ⟨⟨fun _ _ => rfl, rfl⟩, rfl⟩

@[simp] theorem loadWord_psw (a : PhysAddr) (s : State) : (loadWord a s).2.psw = s.psw := by
  rcases loadWord_state a s with h | h | ⟨ws, h⟩ <;> rw [h] <;> rfl

/-- A load is a data read and a register write: the inputs end as the read leaves them. -/
theorem loadInto_completes {s : State} {rd : RegNum} (a : PhysAddr) (hd : Usable s rd) :
    ∃ t, loadInto rd a s = .next t ∧ Dest rd (loadWord a s).1 s t ∧ t.psw = s.psw ∧ CoreKept s t ∧ NoStore s t ∧
      NoInput (loadWord a s).2 t := by
  obtain ⟨⟨hreg, hrecent⟩, hdly⟩ := noDest_loadWord a s
  obtain ⟨t, ht, hdest, hpsw, hframe⟩ := dest_writeReg s (loadWord a s).2 rd (loadWord a s).1 hreg hdly hrecent hd
  exact ⟨t, ht, hdest, hpsw.trans (loadWord_psw a s), (coreKept_loadWord a s).trans hframe.core,
    (noStore_loadWord a s).trans hframe.store, hframe.input⟩

theorem loadInto_givesDrawn {s : State} {rd : RegNum} {a : PhysAddr} (hd : Usable s rd)
    (h : loadWord a s = (Config.freeWord s.draws, s.setDraws (s.draws + 1))) : GivesDrawn (loadInto rd a s) s rd := by
  obtain ⟨t, ht, hdest, hpsw, hcore, hstore, hinput⟩ := loadInto_completes a hd
  rw [h] at hdest hinput
  exact ⟨t, ht, hdest, hpsw, hcore, hstore, hinput.platformIn, hinput.draws⟩

theorem loadInto_givesAnswer {s : State} {rd : RegNum} {a : PhysAddr} {w : Word} {ws : List Word} (hd : Usable s rd)
    (h : loadWord a s = (w, s.setPlatformIn ws)) : GivesAnswer (loadInto rd a s) s rd w ws := by
  obtain ⟨t, ht, hdest, hpsw, hcore, hstore, hinput⟩ := loadInto_completes a hd
  rw [h] at hdest hinput
  exact ⟨t, ht, hdest, hpsw, hcore, hstore, hinput.platformIn, hinput.draws⟩

theorem isPlatform_eq_false {a : PhysAddr} (h : ¬IsPlatform a) : isPlatform a = false := by
  rwa [← Bool.not_eq_true, isPlatform_iff]

/-- The four reads: memory with and without a value, the platform with and without an answer (20_memory.md R71,
R75, 10_state.md R36). -/
theorem loadInto_loads {s : State} {rd : RegNum} (a : PhysAddr) (hd : Usable s rd) :
    Loads (loadInto rd a s) s rd a where
  word hp _ hw := loadInto_gives (isPlatform_eq_false hp) hw hd
  unwritten hp hnone := loadInto_givesDrawn hd (by simp [loadWord, isPlatform_eq_false hp, hnone, drawWord])
  answer hp _ _ hin := loadInto_givesAnswer hd (by simp [loadWord, (isPlatform_iff a).2 hp, platformRead, hin])
  silent hp hin := loadInto_givesDrawn hd (by simp [loadWord, (isPlatform_iff a).2 hp, platformRead, hin, drawWord])

/-! ### The store (44_memory_access.md R215, R217) -/

theorem coreKept_storeMem (s : State) (a : PhysAddr) (v : Word) : CoreKept s (s.storeMem a v) :=
  ⟨rfl, rfl, rfl, rfl, rfl, rfl, rfl, rfl, rfl, rfl⟩

theorem coreKept_platformWrite (s : State) (a : PhysAddr) (v : Word) : CoreKept s (s.platformWrite a v) :=
  ⟨rfl, rfl, rfl, rfl, rfl, rfl, rfl, rfl, rfl, rfl⟩

theorem noDest_storeMem (s : State) (a : PhysAddr) (v : Word) : NoDest s (s.storeMem a v) :=
  ⟨⟨fun _ _ => rfl, rfl⟩, rfl⟩

theorem noDest_platformWrite (s : State) (a : PhysAddr) (v : Word) : NoDest s (s.platformWrite a v) :=
  ⟨⟨fun _ _ => rfl, rfl⟩, rfl⟩

theorem isBootRom_eq_false {a : PhysAddr} (h : ¬IsRom a) : isBootRom a = false := by
  rwa [← Bool.not_eq_true, isBootRom_iff]

theorem storeWord_of_isHome {a : PhysAddr} (h : IsHome a) (v : Word) (s : State) :
    storeWord a v s = .next (s.storeMem a v) := by
  have hrom : ¬IsRom a := by unfold IsHome at h; unfold IsRom; omega
  exact storeWord_eq_next.2 ⟨isBootRom_eq_false hrom, .inr ⟨isPlatform_of_isHome h, rfl⟩⟩

theorem storeWord_of_isPlatform {a : PhysAddr} (h : IsPlatform a) (v : Word) (s : State) :
    storeWord a v s = .next (s.platformWrite a v) :=
  storeWord_eq_next.2 ⟨isBootRom_eq_false (Nat.not_le.2 h.2), .inl ⟨(isPlatform_iff a).2 h, rfl⟩⟩

theorem storeWord_of_isRom {a : PhysAddr} (h : IsRom a) (v : Word) (s : State) :
    storeWord a v s = .refused .romStore := by
  rw [storeWord, if_pos ((isBootRom_iff a).2 h)]

/-- The three regions: memory takes the two bytes of the word and no other, the platform an event, the boot ROM
nothing (20_memory.md R70, R71, R73). -/
theorem storeWord_stores {s : State} (hcanon : MemoryCanonical s) (a : PhysAddr) (v : Word) :
    Stores (storeWord a v s) s v a where
  home h := by
    refine ⟨s.storeMem a v, storeWord_of_isHome h v s, noDest_storeMem s a v, rfl, coreKept_storeMem s a v,
      ⟨rfl, rfl⟩, readWord_writeWord_self s.mem a v hcanon, fun c hc => ?_, rfl, rfl⟩
    obtain ⟨hlo, hhi⟩ := not_or.1 hc
    exact readCell_writeWord_ne s.mem a v hlo hhi
  platform h := ⟨s.platformWrite a v, storeWord_of_isPlatform h v s, noDest_platformWrite s a v, rfl,
    coreKept_platformWrite s a v, ⟨rfl, rfl⟩, fun _ => rfl, rfl, rfl⟩
  rom h := storeWord_of_isRom h v s

end Sys2Proof.Safety

namespace Sys2Proof.Proofs

open Sys2Proof.Machine Sys2Proof.Safety

/-- Settles O31: each clause fixes the answers of the two membership tests, and with them the segment. -/
theorem implicitSegment : Obligations.ImplicitSegment := by
  unfold Obligations.ImplicitSegment
  refine ⟨implicitSeg_zero, ?_⟩
  rintro s rb _ _ hrb rfl rfl
  rw [implicitSeg_of_ne_zero s hrb]
  refine ⟨fun hin => ?_, fun href => ?_, fun hin href => ?_⟩
  · rw [setTest_eq_some_true_iff.2 hin]; rfl
  · rw [setTest_eq_none_iff.2 href]; rfl
  · rw [setTest_eq_some_false hin href]
    refine ⟨fun hin' => ?_, fun href' => ?_, fun hin' href' => ?_⟩
    · rw [setTest_eq_some_true_iff.2 hin']; rfl
    · rw [setTest_eq_none_iff.2 href']; rfl
    · rw [setTest_eq_some_false hin' href']; rfl

/-- Settles O33: LD and LDS are one load from the address they name. -/
theorem loadResult : Obligations.LoadResult := by
  unfold Obligations.LoadResult
  refine ⟨fun s rd rb off g hd hb hg => ?_, fun s rd rb off hb hnone => ?_, fun s rd rs g hd hs => ?_⟩
  · rw [exec_of_loadsFrom (.inl ⟨off, g, rfl, hg, rfl⟩) hb]
    exact loadInto_loads _ hd
  · simp only [exec]
    exact implicitAddr_of_undecided off _ hb hnone
  · rw [exec_of_loadsFrom (.inr ⟨g, rfl, rfl⟩) hs]
    exact loadInto_loads _ hd

/-- Settles O34: ST and STS are one store at the address they name. -/
theorem storeResult : Obligations.StoreResult := by
  unfold Obligations.StoreResult
  refine ⟨fun s rd rb off g hcanon hd hb hg => ?_, fun s rd rb off hb hnone => ?_, fun s rd rs g hcanon hd hs => ?_⟩
  · rw [exec_of_storesTo (.inl ⟨off, g, rfl, hg, rfl⟩) hd hb]
    exact storeWord_stores hcanon _ _
  · simp only [exec]
    exact implicitAddr_of_undecided off _ hb hnone
  · rw [exec_of_storesTo (.inr ⟨g, rfl, rfl⟩) hd hs]
    exact storeWord_stores hcanon _ _

/-- Settles O32: in each row the selectors given decide the membership tests. -/
theorem segmentSelectionExamples : Obligations.SegmentSelectionExamples := by
  unfold Obligations.SegmentSelectionExamples
  intro s
  refine ⟨fun hsr her hds => ?_, fun hsr her hde => ?_, fun hsr hds => ?_, fun hsr her hde => ?_⟩
  · refine ⟨?_, ?_, implicitSeg_zero s, ?_⟩ <;>
      simp [implicitSeg_of_ne_zero, setTest, inSelector, hsr, her, hds]
  · simp [implicitSeg_of_ne_zero, setTest, inSelector, hsr, her, hde]
  · refine ⟨?_, fun hodd => ?_, fun hodd => ?_, fun hodd her => ?_⟩
    · simp [implicitSeg_of_ne_zero, setTest, inSelector, hsr]
    · simp [implicitSeg_of_ne_zero, setTest, inSelector, hsr, hds, hodd]
    · simp [implicitSeg_of_ne_zero, setTest, inSelector, hsr, hds, hodd]
    · simp [implicitSeg_of_ne_zero, setTest, inSelector, hsr, her, hds, hodd]
  · simp [implicitSeg_of_ne_zero, setTest, inSelector, hsr, her, hde]

end Sys2Proof.Proofs
end

section
/-! ## Control flow and the delay slot (45_control_flow.md R230 to R243, 10_state.md R25) -/

namespace Sys2Proof.Safety

open Sys2Proof.Machine

/-! ### What guards an instruction in a delay slot

One rule per shared operation says when its answer is a completion: an operand read of R15 and a transfer complete only
outside a slot, nothing faults, and nothing but a transfer touches the pending one. -/

/-- A transfer of the instruction's own, as against a write of R15: a conditional jump whose condition holds, JML, SWI
or RETI (45_control_flow.md R243 (a), (b), (d), (e)). -/
def Jumps (i : Instr) (p : Word) : Prop :=
  condition p i = some true ∨ isFarJump i = true ∨ i = .swi ∨ i = .reti

theorem transfers_iff {i : Instr} {p : Word} : Transfers i p ↔ Jumps i p ∨ (15 : RegNum) ∈ dests i := by
  unfold Transfers Jumps
  tauto

/-- The answer `o`, in state `s`, of an operation that reads the operands `srcs`, writes the registers `dsts` and
transfers when `jump` holds: it is no fault, and where it is a completion the operands were readable, a transfer was
made outside a delay slot only, and without a transfer the pending one is as before (45_control_flow.md R242, R243). -/
structure Gated (srcs dsts : List RegNum) (jump : Prop) (s : State) (o : Result) : Prop where
  noFault : ∀ f, o ≠ .fault f
  readable : ∀ t, o = .next t → ∀ r ∈ srcs, Usable s r
  outsideSlot : ∀ t, o = .next t → jump ∨ (15 : RegNum) ∈ dsts → s.dly = none
  pending : ∀ t, o = .next t → t.dly = s.dly ∨ jump ∨ (15 : RegNum) ∈ dsts

variable {srcs dsts : List RegNum} {jump : Prop} {s m t : State} {o : Result}

/-- What neither completes nor faults is refused. -/
theorem Gated.refused_of_not_next (h : Gated srcs dsts jump s o) (hn : ∀ t, o ≠ .next t) : ∃ r, o = .refused r := by
  cases o with
  | next t => exact absurd rfl (hn t)
  | fault f => exact absurd rfl (h.noFault f)
  | refused r => exact ⟨r, rfl⟩

/-! ### Answers -/

theorem gated_refused (w : Refusal) : Gated srcs dsts jump s (.refused w) where
  noFault _ := nofun
  readable _ := nofun
  outsideSlot _ := nofun
  pending _ := nofun

/-- A completion with no operand, no destination and no transfer. -/
theorem gated_next (h : t.dly = s.dly) : Gated [] [] False s (.next t) where
  noFault := nofun
  readable _ _ := nofun
  outsideSlot _ _ hj := by simp at hj
  pending := by
    rintro _ ⟨⟩
    exact .inl h

/-- The guard of a transfer, whatever the transfer does (45_control_flow.md R243). -/
theorem gated_slotGuard (t : State) (hm : m.dly = s.dly) (hj : jump ∨ (15 : RegNum) ∈ dsts) :
    Gated [] dsts jump s (if m.inSlot then .refused .transferInSlot else .next t) := by
  unfold State.inSlot
  rw [hm]
  cases hd : s.dly with
  | none => exact ⟨nofun, fun _ _ => nofun, fun _ _ _ => hd, fun _ _ => .inr hj⟩
  | some d => exact gated_refused _

/-- The order and the repetition of the operands do not matter. -/
theorem Gated.srcs_subset {srcs' : List RegNum} (h : Gated srcs dsts jump s o) (hs : srcs' ⊆ srcs) :
    Gated srcs' dsts jump s o :=
  { h with readable := fun t ht r hr => h.readable t ht r (hs hr) }

/-- Of the destinations only R15 matters. -/
theorem Gated.dsts_congr {dsts' : List RegNum} (h : Gated srcs dsts jump s o)
    (hd : (15 : RegNum) ∈ dsts ↔ (15 : RegNum) ∈ dsts') : Gated srcs dsts' jump s o where
  noFault := h.noFault
  readable := h.readable
  outsideSlot t ht hj := h.outsideSlot t ht (by rwa [hd])
  pending t ht := by
    rw [← hd]
    exact h.pending t ht

/-! ### Operands and destinations -/

theorem readReg_of_not_usable {r : RegNum} {k : Word → Result} (h : ¬Usable s r) :
    readReg r s k = .refused .pcReadInSlot := by
  obtain ⟨h15, hd⟩ := Classical.not_imp.1 h
  rw [readReg, if_pos ⟨h15, Option.isSome_iff_ne_none.2 hd⟩]

theorem readReg_gated {r : RegNum} {k : Word → Result} (hk : ∀ v, Gated srcs dsts jump s (k v)) :
    Gated (r :: srcs) dsts jump s (readReg r s k) := by
  by_cases hu : Usable s r
  · rw [readReg_of_usable hu]
    exact { hk (s.reg r) with
      readable := fun t ht => List.forall_mem_cons.2 ⟨hu, (hk (s.reg r)).readable t ht⟩ }
  · rw [readReg_of_not_usable hu]
    exact gated_refused _

/-- The registers a second ALU2 operand reads. -/
def srcRegs : Src → List RegNum
  | .reg rs => [rs]
  | .imm _ => []

theorem readSrc_gated {x : Src} {k : Word → Result} (hk : ∀ v, Gated [] dsts jump s (k v)) :
    Gated (srcRegs x) dsts jump s (readSrc x s k) := by
  cases x with
  | reg rs => exact readReg_gated hk
  | imm v => exact hk _

theorem writeReg_gated (r : RegNum) (v : Word) (hm : m.dly = s.dly) : Gated [] [r] False s (writeReg r v m) := by
  unfold writeReg
  split
  next h15 => exact gated_slotGuard _ hm (.inr (by simp [h15]))
  next h15 =>
    exact (gated_next (t := m.setReg r v) hm).dsts_congr
      (iff_of_false List.not_mem_nil fun h => h15 (List.mem_singleton.1 h).symm)

theorem writePair_of_even {r : RegNum} (lo hi : Word) (he : isEven r = true) :
    writePair r lo hi m = writeReg (r + 1) hi (m.setReg r lo) := by
  have h15 : r ≠ 15 := by
    rintro rfl
    exact absurd he (by decide)
  unfold writePair
  rw [writeReg_eq_next.2 (.inl ⟨h15, rfl⟩)]

theorem writePair_gated {r : RegNum} (lo hi : Word) (he : isEven r = true) (hm : m.dly = s.dly) :
    Gated [] [r, r + 1] False s (writePair r lo hi m) := by
  have h15 : (15 : RegNum) ≠ r := by
    rintro rfl
    exact absurd he (by decide)
  rw [writePair_of_even lo hi he]
  exact (writeReg_gated (m := m.setReg r lo) (r + 1) hi hm).dsts_congr
    ⟨List.mem_cons_of_mem r, fun h => (List.mem_cons.1 h).resolve_left h15⟩

/-! ### The shared operations of the families -/

theorem alu2_gated (f : Params → Word → Word → Word → AluOut) (w : Bool) (rd : RegNum) (x : Src) :
    Gated (rd :: srcRegs x) (bif w then [rd] else []) False s (alu2 f w rd x s) := by
  refine readReg_gated fun a => readSrc_gated fun b => ?_
  cases w with
  | true => exact writeReg_gated rd _ rfl
  | false => exact gated_next rfl

theorem shiftOp_gated (f : Params → Bool → Word → Nat → ShiftOut) (rd : RegNum) (n : BitVec 3) :
    Gated [rd] [rd] False s (shiftOp f rd n s) :=
  readReg_gated fun _ => writeReg_gated rd _ rfl

theorem single_gated (f : Word → Word) (rx : RegNum) : Gated [rx] [rx] False s (single f rx s) :=
  readReg_gated fun _ => writeReg_gated rx _ rfl

theorem multiply32_gated (w : Bool) (rd rs : RegNum) :
    Gated [rd, rs] (bif w then [rd, rd + 1] else []) False s (multiply32 w rd rs s) := by
  unfold multiply32
  split
  next he =>
    refine readReg_gated fun a => readReg_gated fun b => ?_
    cases w with
    | true => exact writePair_gated _ _ he rfl
    | false => exact gated_next rfl
  next => exact gated_refused _

theorem divide_divFlags_dly (a b : Word) (o : DivOut) (s : State) : (divFlags o (divide a b s).2).dly = s.dly := by
  rw [divide_state]
  rfl

theorem divide16_gated (w : Bool) (rd rs : RegNum) :
    Gated [rd, rs] (bif w then [rd] else []) False s (divide16 w rd rs s) := by
  refine readReg_gated fun a => readReg_gated fun b => ?_
  cases w with
  | true => exact writeReg_gated rd _ (divide_divFlags_dly a b _ s)
  | false => exact gated_next (divide_divFlags_dly a b _ s)

theorem divide32_gated (w : Bool) (rd rs : RegNum) :
    Gated [rd, rs] (bif w then [rd, rd + 1] else []) False s (divide32 w rd rs s) := by
  unfold divide32
  split
  next he =>
    refine readReg_gated fun a => readReg_gated fun b => ?_
    cases w with
    | true => exact writePair_gated _ _ he (divide_divFlags_dly a b _ s)
    | false => exact gated_next (divide_divFlags_dly a b _ s)
  next => exact gated_refused _

theorem implicitAddr_gated {rb : RegNum} {off : BitVec 5} {k : PhysAddr → Result}
    (hk : ∀ a, Gated srcs dsts jump s (k a)) : Gated (rb :: srcs) dsts jump s (implicitAddr rb off s k) := by
  refine readReg_gated fun base => ?_
  cases implicitSeg s rb with
  | none => exact gated_refused _
  | some g => exact hk _

theorem explicitAddr_gated {g : Seg} {rs : RegNum} {k : PhysAddr → Result}
    (hk : ∀ a, Gated srcs dsts jump s (k a)) : Gated (rs :: srcs) dsts jump s (explicitAddr g rs s k) :=
  readReg_gated fun _ => hk _

theorem loadInto_gated (rd : RegNum) (a : PhysAddr) : Gated [] [rd] False s (loadInto rd a s) :=
  writeReg_gated rd _ (noDest_loadWord a s).2

theorem storeFrom_gated (rd : RegNum) (a : PhysAddr) : Gated [rd] [] False s (storeFrom rd a s) := by
  refine readReg_gated fun v => ?_
  unfold storeWord
  split
  · exact gated_refused _
  · split
    · exact gated_next rfl
    · exact gated_next rfl

theorem transfer_gated (c : Option Word) (v : Word) : Gated [] [] True s (transfer c v s) :=
  gated_slotGuard _ rfl (.inl trivial)

theorem jumpIf_gated (c : Bool) (target : BitVec 9) : Gated [] [] (c = true) s (jumpIf c target s) := by
  cases c with
  | true => exact gated_slotGuard _ rfl (.inl rfl)
  | false => simpa [jumpIf] using gated_next (s := s) rfl

theorem archRead_dly (r : RegNum) (s : State) : (archRead r s).2.dly = s.dly := by
  unfold archRead
  rw [chooseOld_state]
  rfl

theorem execAmv_gated (rd rs : RegNum) : Gated [] [rd] False s (execAmv rd rs s) := by
  unfold execAmv
  split
  · exact writeReg_gated rd _ rfl
  · exact writeReg_gated rd _ (archRead_dly rs s)

theorem execJml_gated (rx : RegNum) : Gated [rx, rx + 1] [] True s (execJml rx s) := by
  unfold execJml
  split
  · exact readReg_gated fun c => readReg_gated fun v => transfer_gated _ v
  · exact gated_refused _

theorem execMvsTo_gated (g : Seg) (rd : RegNum) : Gated [rd] [] False s (execMvsTo g rd s) := by
  unfold execMvsTo
  split
  · exact gated_refused _
  · exact readReg_gated fun v => gated_next rfl

theorem writePswBit_gated (i : Nat) (b : Bool) : Gated [] [] False s (writePswBit i b s) := by
  unfold writePswBit
  split
  · exact gated_refused _
  · split
    · exact gated_refused _
    · exact gated_next rfl

/-! ### Every instruction -/

/-- Every instruction is gated by the operands, the destinations and the transfers the spec gives it. -/
theorem exec_gated (i : Instr) (s : State) : Gated (sources i) (dests i) (Jumps i s.psw) s (exec i s) := by
  cases i <;> simp only [exec, sources, dests, Jumps, condition, isFarJump, Option.some.injEq, reduceCtorEq,
    Bool.false_eq_true, or_false, or_true]
  case ldi | lsi | mvsFrom | smvApc | smvApsw | smvPsw | smvAcs => exact writeReg_gated _ _ rfl
  case mov => exact readReg_gated fun v => writeReg_gated _ _ rfl
  case amv rd rs => exact execAmv_gated rd rs
  case addR | subR | andR | orR | xorR | mul => exact alu2_gated _ true _ (.reg _)
  case addI | subI | andI | orI | xorI => exact alu2_gated _ true _ (.imm _)
  case anwR | cmpR | tstR | onwR | tbcR | mnw => exact alu2_gated _ false _ (.reg _)
  case anwI | cmpI | tstI | onwI | tbcI => exact alu2_gated _ false _ (.imm _)
  case mul32 rd rs => exact multiply32_gated true rd rs
  case mnw32 rd rs => exact multiply32_gated false rd rs
  case div rd rs => exact divide16_gated true rd rs
  case dnw rd rs => exact divide16_gated false rd rs
  case div32 rd rs => exact divide32_gated true rd rs
  case dnw32 rd rs => exact divide32_gated false rd rs
  case sl | slc | sr | src | sra | sac | ror | roc => exact shiftOp_gated _ _ _
  case swb | inv | neg => exact single_gated _ _
  case ld => exact implicitAddr_gated fun a => loadInto_gated _ a
  case lds => exact explicitAddr_gated fun a => loadInto_gated _ a
  case st rd rb off =>
    exact (implicitAddr_gated fun a => storeFrom_gated rd a).srcs_subset (List.Perm.swap rb rd []).subset
  case sts rd g rs =>
    exact (explicitAddr_gated fun a => storeFrom_gated rd a).srcs_subset (List.Perm.swap rs rd []).subset
  case jz | jnz | jc | jnc | jn | jnn | jo | jno => exact jumpIf_gated _ _
  case jml rx => exact execJml_gated rx
  case mvsTo g rd => exact execMvsTo_gated g rd
  case set | clr | set2 | clr2 => exact writePswBit_gated _ _
  case swi | reti => exact gated_slotGuard _ rfl (.inl trivial)
  case srs | srd | ers | erd | nop | fsh | hlt => exact gated_next rfl

/-- A transfer in a delay slot is refused (45_control_flow.md R243). -/
theorem exec_refused_of_transfers {i : Instr} (hd : s.dly ≠ none) (h : Transfers i s.psw) :
    ∃ r, exec i s = .refused r :=
  (exec_gated i s).refused_of_not_next fun t ht => hd ((exec_gated i s).outsideSlot t ht (transfers_iff.1 h))

/-- An ordinary read of R15 in a delay slot is refused (45_control_flow.md R242). -/
theorem exec_refused_of_source_pc {i : Instr} (hd : s.dly ≠ none) (h : (15 : RegNum) ∈ sources i) :
    ∃ r, exec i s = .refused r :=
  (exec_gated i s).refused_of_not_next fun t ht => hd ((exec_gated i s).readable t ht 15 h rfl)

/-! ### The jumps (45_control_flow.md R231 to R241) -/

theorem transfer_of_dly_none (c : Option Word) (v : Word) (h : s.dly = none) :
    transfer c v s = .next (s.setDly (some ⟨c, v⟩)) := transfer_eq_next.2 ⟨h, rfl⟩

theorem transfer_of_inSlot (c : Option Word) (v : Word) (h : s.dly ≠ none) :
    transfer c v s = .refused .transferInSlot := by
  rw [transfer, if_pos (show s.inSlot = true from Option.isSome_iff_ne_none.2 h)]

theorem jumpIf_true (target : BitVec 9) (s : State) :
    jumpIf true target s = transfer none (jumpTarget s target) s := rfl

theorem jumpIf_false (target : BitVec 9) (s : State) : jumpIf false target s = .next s := rfl

/-- The target in terms of the jump's own offset X (45_control_flow.md R231). -/
theorem jumpTarget_of_pc {x : Word} (target : BitVec 9) (h : s.pc = x + 1) :
    jumpTarget s target = x + s.cfg.jumpBase + target.signExtend 16 := by
  rw [jumpTarget, h, BitVec.add_sub_cancel]

/-- An instruction with a condition is the conditional jump on it. -/
theorem exec_of_condition {i : Instr} {c : Bool} (h : condition s.psw i = some c) :
    ∃ target, exec i s = jumpIf c target s := by
  cases i <;> simp only [condition, reduceCtorEq, Option.some.injEq] at h
  all_goals
    subst h
    exact ⟨_, rfl⟩

theorem exec_jml_of_even {rx : RegNum} (he : isEven rx = true) (h : s.dly = none) :
    exec (.jml rx) s = .next (s.setDly (some ⟨some (s.reg rx), s.reg (rx + 1)⟩)) := by
  have hrx : Usable s rx := fun _ => h
  have hnext : Usable s (rx + 1) := fun _ => h
  simp only [exec, execJml, if_pos he, readReg_of_usable hrx, readReg_of_usable hnext, transfer_of_dly_none _ _ h]

end Sys2Proof.Safety

namespace Sys2Proof.Proofs

open Sys2Proof.Machine Sys2Proof.Safety

/-- Settles O23: no update of an instruction touches PC, CS or the view, and the gate of every instruction says what
sets the pending transfer. -/
theorem onlyTransfersMoveThePc : Obligations.OnlyTransfersMoveThePc := by
  unfold Obligations.OnlyTransfersMoveThePc
  intro i s t h hswi hreti
  obtain ⟨hpc, hcs, hview, -⟩ := updates_core (exec_updates h hswi hreti)
  exact ⟨hpc, hcs, hview, ((exec_gated i s).pending t h).imp_right transfers_iff.2⟩

/-- Settles O24: the gate refuses the transfers, and the pending transfer fails the interrupt's acceptance test. -/
theorem transferInSlotRefused : Obligations.TransferInSlotRefused := by
  unfold Obligations.TransferInSlotRefused
  intro s hd
  refine ⟨fun i => exec_refused_of_transfers hd, fun i hc => ?_, rfl, fun hr hh => ?_⟩
  · obtain ⟨target, hexec⟩ := exec_of_condition hc
    rw [hexec, jumpIf_false]
  · exact step_of_runsInstruction ⟨hr, hh, fun hi => hd hi.2.2⟩

/-- Settles O25: the gate refuses the operand reads; the link and CS are written to a register other than R15. -/
theorem pcReadInSlot : Obligations.PcReadInSlot := by
  unfold Obligations.PcReadInSlot
  intro s hd
  refine ⟨fun i => exec_refused_of_source_pc hd, fun rd h15 => ⟨?_, ?_⟩⟩
  · rw [exec_amv_pc]
    exact writeReg_completes s rd _ fun h => absurd h h15
  · rw [exec_mvsFrom]
    exact writeReg_completes s rd _ fun h => absurd h h15

/-- Settles O56: each of the eight is the jump on its flag, and the jump is a transfer or nothing. -/
theorem conditionalJumpResult : Obligations.ConditionalJumpResult := by
  unfold Obligations.ConditionalJumpResult
  intro s target x i c hpc hi
  have hexec : exec i s = jumpIf c target s := by
    simp only [List.mem_cons, Prod.mk.injEq, List.not_mem_nil, or_false] at hi
    rcases hi with ⟨rfl, rfl⟩ | ⟨rfl, rfl⟩ | ⟨rfl, rfl⟩ | ⟨rfl, rfl⟩ | ⟨rfl, rfl⟩ | ⟨rfl, rfl⟩ | ⟨rfl, rfl⟩ |
      ⟨rfl, rfl⟩ <;> rfl
  rw [hexec]
  refine ⟨?_, ?_, ?_⟩
  · rintro rfl hd
    rw [jumpIf_true, transfer_of_dly_none _ _ hd, jumpTarget_of_pc target hpc]
    rfl
  · rintro rfl hd
    rw [jumpIf_true, transfer_of_inSlot _ _ hd]
  · rintro rfl
    exact jumpIf_false target s

/-- Settles O57: outside a slot both registers are read and the transfer made; an odd Rx is refused before that, and in
a slot JML is one of the transfers refused. -/
theorem farJumpResult : Obligations.FarJumpResult := by
  unfold Obligations.FarJumpResult
  refine ⟨fun s rx he hd => exec_jml_of_even (isEven_of_bit he) hd, fun s rx ho => ?_,
    fun s rx _ hd => exec_refused_of_transfers hd (.inr (.inl rfl))⟩
  simp [exec, execJml, isEven_of_bit_true ho]

end Sys2Proof.Proofs
end

section
/-! ## PSW operations (46_psw_ops.md R250 to R262) -/

namespace Sys2Proof.Safety

open Sys2Proof.Machine

/-! ### The selectors (46_psw_ops.md R250 to R255) -/

/-- The four bits at `lo` are those of the register number: the register's contents take no part (R251). -/
theorem extractLsb'_pswSelect (p : Word) {lo : Nat} (r : RegNum) (dual : Bool) (hlo : lo + 4 < 16) :
    (pswSelect p lo r dual).extractLsb' lo 4 = r := by
  refine BitVec.eq_of_getLsbD_eq fun i hi => ?_
  rw [BitVec.getLsbD_extractLsb', decide_eq_true hi, Bool.true_and, getLsbD_pswSelect _ _ _ _ _ hlo,
    if_neg (by omega), if_pos (by omega), Nat.add_sub_cancel_left]

theorem getLsbD_pswSelect_dual (p : Word) {lo : Nat} (r : RegNum) (dual : Bool) (hlo : lo + 4 < 16) :
    (pswSelect p lo r dual).getLsbD (lo + 4) = dual := by
  rw [getLsbD_pswSelect _ _ _ _ _ hlo, if_pos rfl]

theorem getLsbD_pswSelect_outside (p : Word) {lo j : Nat} (r : RegNum) (dual : Bool) (hlo : lo + 4 < 16)
    (hj : j < lo ∨ lo + 4 < j) : (pswSelect p lo r dual).getLsbD j = p.getLsbD j :=
  getLsbD_pswSelect_of_notMem p r dual hlo (by simp only [List.mem_cons, List.not_mem_nil, or_false]; omega)

/-- The selector write at either place: its field, its dual bit, every other bit and the frame. -/
theorem setPsw_pswSelect_completes (s : State) (lo : Nat) (r : RegNum) (dual : Bool) (hlo : lo + 4 < 16) :
    ∃ t, (Host.Outcome.next (s.setPsw (pswSelect s.psw lo r dual)) : Result) = .next t ∧
      t.psw.extractLsb' lo 4 = r ∧ t.psw.getLsbD (lo + 4) = dual ∧
      (∀ j, j < lo ∨ lo + 4 < j → t.psw.getLsbD j = s.psw.getLsbD j) ∧ NoDest s t ∧ Frame s t := by
  refine ⟨_, rfl, ?_, ?_, fun j hj => ?_, noDest_setPsw s _, frame_setPsw s _⟩ <;> rw [State.setPsw_psw]
  · exact extractLsb'_pswSelect s.psw r dual hlo
  · exact getLsbD_pswSelect_dual s.psw r dual hlo
  · exact getLsbD_pswSelect_outside s.psw r dual hlo hj

/-- SRS and SRD are one operation, told apart by the dual bit (R252, R253). -/
theorem exec_stackSelector (rx : RegNum) (dual : Bool) (s : State) :
    exec (if dual then .srd rx else .srs rx) s = selectStack rx dual s := by
  cases dual <;> rfl

/-- ERS and ERD are one operation, told apart by the dual bit (R254, R255). -/
theorem exec_extraSelector (rx : RegNum) (dual : Bool) (s : State) :
    exec (if dual then .erd rx else .ers rx) s = selectExtra rx dual s := by
  cases dual <;> rfl

/-! ### The single-bit write (46_psw_ops.md R256 to R262) -/

theorem writePswBit_completes {k : Nat} {b : Bool} {s : State} (hk : k < 16) (hS : k = 5 → s.psw.getLsbD 5 = b) :
    ∃ t, writePswBit k b s = .next t ∧ t.psw.getLsbD k = b ∧
      (∀ j, j ≠ k → t.psw.getLsbD j = s.psw.getLsbD j) ∧ NoDest s t ∧ Frame s t := by
  refine ⟨_, writePswBit_eq_next.2 ⟨Nat.le_of_lt_succ hk, hS, rfl⟩, ?_, fun j hj => ?_, noDest_setPsw s _,
    frame_setPsw s _⟩ <;> rw [State.setPsw_psw]
  · exact getLsbD_pswSet_self s.psw k b hk
  · exact getLsbD_pswSet_ne s.psw b hk hj

theorem writePswBit_of_viewChange {b : Bool} {s : State} (h : s.psw.getLsbD 5 ≠ b) :
    writePswBit 5 b s = .refused .viewChange := by
  rw [writePswBit, if_neg (by decide), if_pos ⟨rfl, h⟩]

theorem writePswBit_above15 {k : Nat} (b : Bool) (s : State) (h : 16 ≤ k) :
    writePswBit k b s = .refused .pswBitAbove15 := by
  rw [writePswBit, if_pos (Nat.lt_of_succ_le h)]

end Sys2Proof.Safety

namespace Sys2Proof.Proofs

open Sys2Proof.Machine Sys2Proof.Safety

/-- Settles O58: the two selectors are one write, with its field at bit 6 (SR) or at bit 11 (ER). -/
theorem selectorResult : Obligations.SelectorResult := by
  unfold Obligations.SelectorResult
  intro s rx dual
  rw [exec_stackSelector, exec_extraSelector]
  exact ⟨setPsw_pswSelect_completes s 6 rx dual (by decide), setPsw_pswSelect_completes s 11 rx dual (by decide)⟩

/-- Settles O59: each of the four is the single-bit write at its index, and that write completes or stops at one of its
two tests. -/
theorem pswBitResult : Obligations.PswBitResult := by
  unfold Obligations.PswBitResult
  intro s imm i k b hi
  have hexec : exec i s = writePswBit k b s := by
    simp only [List.mem_cons, Prod.mk.injEq, List.not_mem_nil, or_false] at hi
    rcases hi with ⟨rfl, rfl, rfl⟩ | ⟨rfl, rfl, rfl⟩ | ⟨rfl, rfl, rfl⟩ | ⟨rfl, rfl, rfl⟩ <;> rfl
  rw [hexec]
  refine ⟨writePswBit_completes, ?_, writePswBit_above15 b s⟩
  rintro rfl hS
  exact writePswBit_of_viewChange hS

end Sys2Proof.Proofs
end

section
/-! ## System instructions (47_system.md R270 to R276) -/

namespace Sys2Proof.Machine

/-! ### Interrupt entry, by what its vector holds (60_exceptions.md R326) -/

/-- Both vectors are words of ordinary memory (20_memory.md R72). -/
theorem isPlatform_vectorAddr (v : EntryVector) : isPlatform (vectorAddr v) = false := by
  cases v <;> rfl

theorem pswI_entryPsw (p : Word) : pswI (entryPsw p) = false := getLsbD_entryPsw p 4

theorem getLsbD_entryPsw_of_ne (p : Word) {j : Nat} (hI : j ≠ 4) (hS : j ≠ 5) :
    (entryPsw p).getLsbD j = p.getLsbD j := by
  rw [getLsbD_entryPsw, if_neg hI, if_neg hS]

theorem interruptEntry_of_readWord {v : EntryVector} {s : State} {w : Word}
    (h : readWord s.mem (vectorAddr v) = some w) :
    interruptEntry v s = { s with
      view := .shadow, shadow := ⟨w, 0x0000, entryPsw s.psw⟩, dly := none, recent := [], stored := [] } := by
  rw [interruptEntry_eq, loadWord_of_readWord (isPlatform_vectorAddr v) h]

/-- A vector nothing has written is read as a free value (10_state.md R36, log 4). -/
theorem interruptEntry_of_unwritten {v : EntryVector} {s : State} (h : readWord s.mem (vectorAddr v) = none) :
    interruptEntry v s = { s with
      view := .shadow, shadow := ⟨Config.freeWord s.draws, 0x0000, entryPsw s.psw⟩, dly := none, recent := []
      stored := [], draws := s.draws + 1 } := by
  have hload : loadWord (vectorAddr v) s = (Config.freeWord s.draws, s.setDraws (s.draws + 1)) := by
    simp [loadWord, isPlatform_vectorAddr v, h, drawWord]
  rw [interruptEntry_eq, hload]
  rfl

/-! ### The view switched and switched back -/

theorem State.active_of_normal {s : State} (h : s.view = .normal) : s.active = s.normal := by
  simp [State.active, h]

/-- SWI leaves the interrupted bank and RETI makes it active again, whatever happened to the rest (47_system.md
R274). -/
theorem active_interruptReturn_of_interruptEntry {v : EntryVector} {s u : State} (hs : s.view = .normal)
    (hu : u.normal = (interruptEntry v s).normal) : (interruptReturn u).active = s.active :=
  calc (interruptReturn u).active
      = u.normal := State.active_of_normal (interruptReturn_view u)
    _ = s.normal := hu.trans (interruptEntry_normal v s)
    _ = s.active := (State.active_of_normal hs).symm

/-! ### SWI and RETI in a delay slot (45_control_flow.md R243) -/

theorem State.inSlot_of_dly_ne_none {s : State} (h : s.dly ≠ none) : s.inSlot = true :=
  Option.isSome_iff_ne_none.2 h

theorem execSwi_of_inSlot {s : State} (h : s.dly ≠ none) : execSwi s = .refused .transferInSlot :=
  if_pos (State.inSlot_of_dly_ne_none h)

theorem execReti_of_inSlot {s : State} (h : s.dly ≠ none) : execReti s = .refused .transferInSlot :=
  if_pos (State.inSlot_of_dly_ne_none h)

end Sys2Proof.Machine

namespace Sys2Proof.Safety

open Sys2Proof.Machine

/-! ### The halted processor (47_system.md R276) -/

theorem NeverReset.noReset {s : State} (h : NeverReset s) : NoReset s := by
  unfold NoReset State.boundary
  cases he : s.env with
  | nil => rfl
  | cons b bs => exact h b (by simp [he])

theorem NeverReset.nextBoundary {s : State} (h : NeverReset s) : NeverReset s.nextBoundary :=
  fun b hb => h b (List.mem_of_mem_tail hb)

/-- IRQ is not looked at. -/
theorem step_of_halted {s : State} (hr : NoReset s) (hh : s.halted = true) : step s = .next s.nextBoundary := by
  have hr : s.boundary.reset = false := hr
  simp [step, boundaryStep, hr, hh]

/-- Without a reset a halted run of any length samples its boundaries and does nothing else. -/
theorem run_of_halted (n : Nat) (s : State) (hh : s.halted = true) (hr : NeverReset s) :
    Sys2Proof.core.run n s = .next { s with env := s.env.drop n } := by
  induction n generalizing s with
  | zero => rfl
  | succ n ih =>
    rw [core_run_succ n s s.nextBoundary (step_of_halted hr.noReset hh), ih s.nextBoundary hh hr.nextBoundary,
      State.nextBoundary_env, List.drop_tail]
    rfl

end Sys2Proof.Safety

namespace Sys2Proof.Proofs

open Sys2Proof.Machine Sys2Proof.Safety

/-- Settles O10: outside a slot SWI is interrupt entry through its vector, by the two things the vector can hold. -/
theorem swiEntersHandler : Obligations.SwiEntersHandler := by
  unfold Obligations.SwiEntersHandler
  refine ⟨rfl, fun s w hd hw => ?_, fun s hd hw => ?_, fun s => execSwi_of_inSlot⟩
  · refine ⟨entryPsw s.psw, pswS_entryPsw s.psw, pswI_entryPsw s.psw, fun j => getLsbD_entryPsw_of_ne s.psw, ?_⟩
    exact execSwi_eq_next.2 ⟨hd, (interruptEntry_of_readWord (v := .swi) hw).symm⟩
  · refine ⟨_, execSwi_eq_next.2 ⟨hd, rfl⟩, ?_⟩
    rw [interruptEntry_of_unwritten (v := .swi) hw]
    exact ⟨rfl, rfl, rfl, rfl, rfl, rfl, rfl⟩

/-- Settles O11: outside a slot RETI is the return, which in the normal view is a flush; the bank it makes active is the
one SWI left. -/
theorem retiReturns : Obligations.RetiReturns := by
  unfold Obligations.RetiReturns
  refine ⟨rfl, fun s hd => ?_, fun s hd hv => ?_, fun s => execReti_of_inSlot, fun s t u r hv hswi hu hreti => ?_⟩
  · exact execReti_eq_next.2 ⟨hd, (interruptReturn_eq s).symm⟩
  · have hflush : flush s = interruptReturn s := by rw [interruptReturn, ← hv]
    exact execReti_eq_next.2 ⟨hd, hflush⟩
  · obtain ⟨-, rfl⟩ := execSwi_eq_next.1 hswi
    obtain ⟨-, rfl⟩ := execReti_eq_next.1 hreti
    have hbank := active_interruptReturn_of_interruptEntry hv hu
    exact ⟨congrArg Bank.pc hbank, congrArg Bank.cs hbank, congrArg Bank.psw hbank⟩

/-- Settles O19: the run of a halted processor, by induction on its length. -/
theorem haltIsTerminal : Obligations.HaltIsTerminal := by
  unfold Obligations.HaltIsTerminal
  exact ⟨rfl, fun _ => rfl, run_of_halted⟩

/-- Settles O60: the two words and the two meanings, which test nothing of the state. -/
theorem nopAndFlush : Obligations.NopAndFlush := by
  unfold Obligations.NopAndFlush
  exact ⟨rfl, rfl, fun _ => rfl, fun _ => rfl⟩

end Sys2Proof.Proofs
end

section
/-! ## Where an instruction stops (93_implementation_defined.md sections 1, 2 and 4, 60_exceptions.md R321)

An instruction that completes is none the spec refuses, by the completion rules of the shared operations read forwards;
one the spec does not refuse completes, by one sufficient condition per shared operation. -/

namespace Sys2Proof.Safety

open Sys2Proof.Machine

/-! ### What completes is not refused -/

section Refused

variable {i : Instr} {s t : State} {rd rb rs : RegNum}

/-- The four instructions on a register pair ask for an even one (41_alu.md R165). -/
theorem exec_pair_of_odd (hi : i = .mul32 rd rs ∨ i = .mnw32 rd rs ∨ i = .div32 rd rs ∨ i = .dnw32 rd rs)
    (ho : rd.getLsbD 0 = true) : exec i s = .refused .oddPair := by
  have ho := isEven_of_bit_true ho
  rcases hi with rfl | rfl | rfl | rfl
  · exact multiply32_of_odd true rs s ho
  · exact multiply32_of_odd false rs s ho
  · exact divide32_of_odd true rs s ho
  · exact divide32_of_odd false rs s ho

theorem exec_jml_of_odd (ho : rd.getLsbD 0 = true) : exec (.jml rd) s = .refused .oddJml := by
  simp [exec, execJml, isEven_of_bit_true ho]

/-- SET2 and CLR2 reach the bits 4 to 19, of which the last four do not exist (46_psw_ops.md R261). -/
theorem exec_pswBit_above15 {n : BitVec 4} (hi : i = .set2 n ∨ i = .clr2 n) (hn : 12 ≤ n.toNat) :
    exec i s = .refused .pswBitAbove15 := by
  have hk : 16 ≤ n.toNat + 4 := by omega
  rcases hi with rfl | rfl
  · exact writePswBit_above15 true s hk
  · exact writePswBit_above15 false s hk

/-- Both names of a set of bit 5 (46_psw_ops.md R262). -/
theorem exec_setS (hi : i = .set 5 ∨ i = .set2 1) (hS : pswS s.psw = false) : exec i s = .refused .viewChange := by
  have hne : s.psw.getLsbD 5 ≠ true := ne_true_of_eq_false hS
  rcases hi with rfl | rfl
  · exact writePswBit_of_viewChange hne
  · exact writePswBit_of_viewChange hne

/-- Both names of a clear of bit 5 (46_psw_ops.md R262). -/
theorem exec_clearS (hi : i = .clr 5 ∨ i = .clr2 1) (hS : pswS s.psw = true) : exec i s = .refused .viewChange := by
  have hne : s.psw.getLsbD 5 ≠ false := ne_false_of_eq_true hS
  rcases hi with rfl | rfl
  · exact writePswBit_of_viewChange hne
  · exact writePswBit_of_viewChange hne

/-- LD and ST that complete have a segment (44_memory_access.md R213). -/
theorem implicitSeg_ne_none_of_next {off : BitVec 5} (hi : i = .ld rd rb off ∨ i = .st rd rb off)
    (h : exec i s = .next t) : implicitSeg s rb ≠ none := by
  rcases hi with rfl | rfl
  · obtain ⟨-, g, hg, -⟩ := implicitAddr_eq_next.1 (show execLd rd rb off s = .next t from h)
    simp [hg]
  · obtain ⟨-, g, hg, -⟩ := implicitAddr_eq_next.1 (show execSt rd rb off s = .next t from h)
    simp [hg]

/-- A store that completes went elsewhere than to the boot ROM (20_memory.md R73). -/
theorem not_isRom_of_storesTo {a : PhysAddr} (hi : StoresTo i s rd rb a) (h : exec i s = .next t) : ¬IsRom a := by
  obtain ⟨hrom, -⟩ := storeWord_eq_next.1 (storeWord_of_storesTo hi h)
  rwa [← isBootRom_iff, Bool.not_eq_true]

/-- An ST whose address is decided is a store to that address (44_memory_access.md R211, R212). -/
theorem storesTo_of_implicitAddress {off : BitVec 5} {a : PhysAddr} (h : implicitAddress s rb off = some a) :
    StoresTo (.st rd rb off) s rd rb a := by
  obtain ⟨g, hg, rfl⟩ := Option.map_eq_some_iff.1 h
  exact .inl ⟨off, g, rfl, hg, rfl⟩

/-- An instruction that completes is in none of the situations the spec refuses. -/
theorem not_refuses_of_next (h : exec i s = .next t) : ¬Refuses i s := by
  have hrefused : ∀ w, exec i s ≠ .refused w := fun w e => by rw [h] at e; cases e
  rintro (⟨hd, htransfer | hsource⟩ | ⟨rd, rs, hi, ho⟩ | ⟨rx, rfl, ho⟩ | ⟨n, hi, hn⟩ | ⟨hi, hS⟩ | ⟨hi, hS⟩ |
    ⟨rd, rfl⟩ | ⟨rd, rb, off, hi, hnone⟩ | ⟨rd, rb, off, a, rfl, haddr, hrom⟩ | ⟨rd, g, rs, rfl, hrom⟩)
  · obtain ⟨w, hw⟩ := exec_refused_of_transfers hd htransfer
    exact hrefused w hw
  · obtain ⟨w, hw⟩ := exec_refused_of_source_pc hd hsource
    exact hrefused w hw
  · exact hrefused _ (exec_pair_of_odd hi ho)
  · exact hrefused _ (exec_jml_of_odd ho)
  · exact hrefused _ (exec_pswBit_above15 hi hn)
  · exact hrefused _ (exec_setS hi hS)
  · exact hrefused _ (exec_clearS hi hS)
  · exact hrefused .mvsToCs rfl
  · exact implicitSeg_ne_none_of_next hi h hnone
  · exact not_isRom_of_storesTo (storesTo_of_implicitAddress haddr) h hrom
  · exact not_isRom_of_storesTo (.inr ⟨g, rfl, rfl⟩) h hrom

end Refused

/-! ### When each shared operation completes -/

/-- The operation answers with a next state. -/
abbrev Completes (o : Result) : Prop := ∃ t, o = .next t

section Completion

variable {s m : State} {r rd rb rs : RegNum}

theorem completes_next (t : State) : Completes (.next t) := ⟨t, rfl⟩

theorem completes_readReg {k : Word → Result} (hr : Usable s r) (hk : Completes (k (s.reg r))) :
    Completes (readReg r s k) := by
  rwa [readReg_of_usable hr]

theorem completes_readSrc {x : Src} {k : Word → Result} (hx : SrcUsable s x) (hk : Completes (k (srcValue s x))) :
    Completes (readSrc x s k) := by
  rwa [readSrc_of_usable hx]

/-- A register write after updates that left the pending transfer. -/
theorem completes_writeReg (v : Word) (hr : Usable s r) (hm : m.dly = s.dly) : Completes (writeReg r v m) := by
  obtain ⟨t, ht, -⟩ := writeReg_completes m r v fun h15 => hm.trans (hr h15)
  exact ⟨t, ht⟩

theorem completes_writePair (lo hi : Word) (he : isEven r = true) (hr : Usable s (r + 1)) (hm : m.dly = s.dly) :
    Completes (writePair r lo hi m) := by
  rw [writePair_of_even lo hi he]
  exact completes_writeReg hi hr hm

theorem completes_alu2 (f : Params → Word → Word → Word → AluOut) (w : Bool) {x : Src} (hd : Usable s rd)
    (hx : SrcUsable s x) : Completes (alu2 f w rd x s) := by
  refine completes_readReg hd (completes_readSrc hx ?_)
  cases w with
  | true => exact completes_writeReg _ hd rfl
  | false => exact completes_next _

theorem completes_shiftOp (f : Params → Bool → Word → Nat → ShiftOut) (n : BitVec 3) (hd : Usable s rd) :
    Completes (shiftOp f rd n s) := completes_readReg hd (completes_writeReg _ hd rfl)

theorem completes_single (f : Word → Word) (hr : Usable s r) : Completes (single f r s) :=
  completes_readReg hr (completes_writeReg _ hr rfl)

theorem completes_multiply32 {w : Bool} (he : isEven rd = true) (hs : Usable s rs)
    (hd : w = true → Usable s (rd + 1)) : Completes (multiply32 w rd rs s) := by
  rw [multiply32_of_even w he hs]
  cases w with
  | true => exact completes_writePair _ _ he (hd rfl) rfl
  | false => exact completes_next _

theorem completes_divide16 (w : Bool) (hd : Usable s rd) (hs : Usable s rs) : Completes (divide16 w rd rs s) := by
  refine completes_readReg hd (completes_readReg hs ?_)
  cases w with
  | true => exact completes_writeReg _ hd (divide_divFlags_dly _ _ _ s)
  | false => exact completes_next _

theorem completes_divide32 {w : Bool} (he : isEven rd = true) (hs : Usable s rs)
    (hd : w = true → Usable s (rd + 1)) : Completes (divide32 w rd rs s) := by
  unfold divide32
  rw [if_pos he]
  refine completes_readReg (usable_of_even s he) (completes_readReg hs ?_)
  cases w with
  | true => exact completes_writePair _ _ he (hd rfl) (divide_divFlags_dly _ _ _ s)
  | false => exact completes_next _

theorem completes_loadInto (a : PhysAddr) (hd : Usable s rd) : Completes (loadInto rd a s) :=
  completes_writeReg _ hd (noDest_loadWord a s).2

theorem completes_storeFrom {a : PhysAddr} (hd : Usable s rd) (ha : ¬IsRom a) : Completes (storeFrom rd a s) := by
  refine completes_readReg hd ?_
  by_cases hp : IsPlatform a
  · exact ⟨_, storeWord_of_isPlatform hp _ s⟩
  · exact ⟨_, storeWord_eq_next.2 ⟨isBootRom_eq_false ha, .inr ⟨isPlatform_eq_false hp, rfl⟩⟩⟩

/-- With its segment decided, LD or ST goes on from its address. -/
theorem completes_implicitAddr {off : BitVec 5} {k : PhysAddr → Result} (hb : Usable s rb)
    (hg : implicitSeg s rb ≠ none) (hk : ∀ a, implicitAddress s rb off = some a → Completes (k a)) :
    Completes (implicitAddr rb off s k) := by
  obtain ⟨g, hg⟩ := Option.ne_none_iff_exists'.1 hg
  obtain ⟨t, ht⟩ := hk _ (Option.map_eq_some_iff.2 ⟨g, hg, rfl⟩)
  exact ⟨t, implicitAddr_eq_next.2 ⟨hb, g, hg, ht⟩⟩

theorem completes_explicitAddr {g : Seg} {k : PhysAddr → Result} (hs : Usable s rs)
    (hk : Completes (k (phys (s.seg g) (s.reg rs)))) : Completes (explicitAddr g rs s k) := completes_readReg hs hk

theorem completes_jumpIf {c : Bool} (target : BitVec 9) (hc : c = true → s.dly = none) :
    Completes (jumpIf c target s) := by
  cases c with
  | true => exact ⟨_, transfer_of_dly_none _ _ (hc rfl)⟩
  | false => exact completes_next s

/-- The source of the architectural read may be R15 in a delay slot (40_data_movement.md R135). -/
theorem completes_execAmv (rs : RegNum) (hd : Usable s rd) : Completes (execAmv rd rs s) := by
  unfold execAmv
  split
  · exact completes_writeReg _ hd rfl
  · exact completes_writeReg _ hd (archRead_dly rs s)

theorem completes_writePswBit {k : Nat} {b : Bool} (hk : k < 16) (hS : k = 5 → pswS s.psw = b) :
    Completes (writePswBit k b s) := ⟨_, writePswBit_eq_next.2 ⟨Nat.le_of_lt_succ hk, hS, rfl⟩⟩

end Completion

/-! ### What is not refused completes -/

/-- Every instruction outside the situations the spec refuses completes: the operands and destinations are usable, a
transfer is made outside a delay slot, and the instruction's own condition holds. -/
theorem completes_of_not_refuses {i : Instr} {s : State} (h : ¬Refuses i s) : Completes (exec i s) := by
  unfold Refuses at h
  simp only [not_or] at h
  obtain ⟨hslot, hpair, hjml, hbit, hset, hclr, hcs, hseg, hst, hsts⟩ := h
  have hsrc : ∀ r ∈ sources i, Usable s r := fun r hr h15 =>
    by_contra fun hd => hslot ⟨hd, .inr (h15 ▸ hr)⟩
  have hdst : ∀ r ∈ dests i, Usable s r := fun r hr h15 =>
    by_contra fun hd => hslot ⟨hd, .inl (transfers_iff.2 (.inr (h15 ▸ hr)))⟩
  have hjump : Jumps i s.psw → s.dly = none := fun hj =>
    by_contra fun hd => hslot ⟨hd, .inl (transfers_iff.2 (.inl hj))⟩
  have heven : ∀ rd : RegNum, ¬rd.getLsbD 0 = true → isEven rd = true := fun rd ho =>
    isEven_of_bit (Bool.eq_false_iff.2 ho)
  clear hslot
  cases i <;> simp only [exec, sources, dests, List.forall_mem_cons] at hsrc hdst ⊢
  case ldi | lsi | mvsFrom | smvApc | smvApsw | smvPsw | smvAcs => exact completes_writeReg _ hdst.1 rfl
  case mov => exact completes_readReg hsrc.1 (completes_writeReg _ hdst.1 rfl)
  case amv rd rs => exact completes_execAmv rs hdst.1
  case addR | anwR | subR | cmpR | andR | tstR | orR | onwR | xorR | tbcR | mul | mnw =>
    obtain ⟨hd, hs, -⟩ := hsrc
    exact completes_alu2 _ _ (x := .reg _) hd hs
  case addI | anwI | subI | cmpI | andI | tstI | orI | onwI | xorI | tbcI =>
    exact completes_alu2 _ _ (x := .imm _) hsrc.1 trivial
  case mul32 rd rs =>
    obtain ⟨-, hs, -⟩ := hsrc
    obtain ⟨-, hd, -⟩ := hdst
    exact completes_multiply32 (heven rd fun ho => hpair ⟨rd, rs, .inl rfl, ho⟩) hs fun _ => hd
  case mnw32 rd rs =>
    obtain ⟨-, hs, -⟩ := hsrc
    exact completes_multiply32 (heven rd fun ho => hpair ⟨rd, rs, .inr (.inl rfl), ho⟩) hs nofun
  case div | dnw =>
    obtain ⟨hd, hs, -⟩ := hsrc
    exact completes_divide16 _ hd hs
  case div32 rd rs =>
    obtain ⟨-, hs, -⟩ := hsrc
    obtain ⟨-, hd, -⟩ := hdst
    exact completes_divide32 (heven rd fun ho => hpair ⟨rd, rs, .inr (.inr (.inl rfl)), ho⟩) hs fun _ => hd
  case dnw32 rd rs =>
    obtain ⟨-, hs, -⟩ := hsrc
    exact completes_divide32 (heven rd fun ho => hpair ⟨rd, rs, .inr (.inr (.inr rfl)), ho⟩) hs nofun
  case sl | slc | sr | src | sra | sac | ror | roc => exact completes_shiftOp _ _ hsrc.1
  case swb | inv | neg => exact completes_single _ hsrc.1
  case ld rd rb off =>
    exact completes_implicitAddr hsrc.1 (fun hnone => hseg ⟨rd, rb, off, .inl rfl, hnone⟩) fun a _ =>
      completes_loadInto a hdst.1
  case st rd rb off =>
    obtain ⟨hd, hb, -⟩ := hsrc
    exact completes_implicitAddr hb (fun hnone => hseg ⟨rd, rb, off, .inr rfl, hnone⟩) fun a ha =>
      completes_storeFrom hd fun hrom => hst ⟨rd, rb, off, a, rfl, ha, hrom⟩
  case lds => exact completes_explicitAddr hsrc.1 (completes_loadInto _ hdst.1)
  case sts rd g rs =>
    obtain ⟨hd, hs, -⟩ := hsrc
    exact completes_explicitAddr hs (completes_storeFrom hd fun hrom => hsts ⟨rd, g, rs, rfl, hrom⟩)
  case jz | jnz | jc | jnc | jn | jnn | jo | jno =>
    exact completes_jumpIf _ fun hc => hjump (.inl (congrArg some hc))
  case jml rx => exact ⟨_, exec_jml_of_even (heven rx fun ho => hjml ⟨rx, rfl, ho⟩) (hjump (.inr (.inl rfl)))⟩
  case mvsTo g rd => exact ⟨_, exec_mvsTo_of_usable (by rintro rfl; exact hcs ⟨rd, rfl⟩) hsrc.1⟩
  case set n =>
    refine completes_writePswBit n.isLt fun h5 => Bool.eq_true_of_not_eq_false fun hS => hset ⟨.inl ?_, hS⟩
    exact congrArg Instr.set (BitVec.eq_of_toNat_eq h5)
  case clr n =>
    refine completes_writePswBit n.isLt fun h5 => Bool.eq_false_of_not_eq_true fun hS => hclr ⟨.inl ?_, hS⟩
    exact congrArg Instr.clr (BitVec.eq_of_toNat_eq h5)
  case set2 n =>
    have hn : n.toNat < 12 := Nat.lt_of_not_le fun hle => hbit ⟨n, .inl rfl, hle⟩
    refine completes_writePswBit (by omega) fun h5 => Bool.eq_true_of_not_eq_false fun hS => hset ⟨.inr ?_, hS⟩
    exact congrArg Instr.set2 (BitVec.eq_of_toNat_eq (Nat.add_right_cancel h5))
  case clr2 n =>
    have hn : n.toNat < 12 := Nat.lt_of_not_le fun hle => hbit ⟨n, .inr rfl, hle⟩
    refine completes_writePswBit (by omega) fun h5 => Bool.eq_false_of_not_eq_true fun hS => hclr ⟨.inr ?_, hS⟩
    exact congrArg Instr.clr2 (BitVec.eq_of_toNat_eq (Nat.add_right_cancel h5))
  case swi => exact ⟨_, execSwi_eq_next.2 ⟨hjump (.inr (.inr (.inl rfl))), rfl⟩⟩
  case reti => exact ⟨_, execReti_eq_next.2 ⟨hjump (.inr (.inr (.inr rfl))), rfl⟩⟩
  case srs | srd | ers | erd | nop | fsh | hlt => exact completes_next _

end Sys2Proof.Safety

namespace Sys2Proof.Proofs

open Sys2Proof.Machine Sys2Proof.Safety

/-- Settles O26: what completes meets none of the refusals, what meets none completes, and the gate of every
instruction lets no fault through. -/
theorem execStopsExactlyWhereSpecRefuses : Obligations.ExecStopsExactlyWhereSpecRefuses := by
  unfold Obligations.ExecStopsExactlyWhereSpecRefuses
  exact fun i s _ => ⟨⟨fun ⟨_, h⟩ => not_refuses_of_next h, completes_of_not_refuses⟩, (exec_gated i s).noFault⟩

end Sys2Proof.Proofs
end

section
/-! ## The boundary's events: input, reset, hardware interrupt (60_exceptions.md R323 to R326, R330,
70_reset_and_hazards.md R360, R361) -/

namespace Sys2Proof.Machine

/-! ### What interrupt entry and a slot's end do to the parameters, the inputs and the PSW -/

@[simp] theorem interruptEntry_cfg (v : EntryVector) (s : State) : (interruptEntry v s).cfg = s.cfg :=
  (Safety.coreKept_loadWord (vectorAddr v) s).cfg

@[simp] theorem interruptEntry_env (v : EntryVector) (s : State) : (interruptEntry v s).env = s.env :=
  (Safety.coreKept_loadWord (vectorAddr v) s).env

@[simp] theorem interruptEntry_psw (v : EntryVector) (s : State) : (interruptEntry v s).psw = entryPsw s.psw := rfl

@[simp] theorem completeTransfer_cfg (d : Transfer) (s : State) : (completeTransfer d s).cfg = s.cfg := by
  unfold completeTransfer
  cases d.cs <;> rfl

@[simp] theorem completeTransfer_env (d : Transfer) (s : State) : (completeTransfer d s).env = s.env := by
  unfold completeTransfer
  cases d.cs <;> rfl

end Sys2Proof.Machine

namespace Sys2Proof.Safety

open Sys2Proof.Machine

/-- No instruction, SWI and RETI among them, writes a parameter or samples a boundary input (60_exceptions.md R323). -/
theorem exec_cfg_env {i : Instr} {s t : State} (h : exec i s = .next t) : t.cfg = s.cfg ∧ t.env = s.env := by
  rcases exec_cases h with hu | ⟨-, -, rfl⟩ | ⟨-, -, rfl⟩
  · obtain ⟨-, -, -, -, hcfg, henv⟩ := updates_core hu
    exact ⟨hcfg, henv⟩
  · exact ⟨interruptEntry_cfg .swi s, interruptEntry_env .swi s⟩
  · exact ⟨rfl, rfl⟩

/-! ### What each event makes of the step -/

/-- Reset is asked first: neither the halt nor IRQ is looked at (60_exceptions.md R325). -/
theorem step_of_reset {s : State} (h : s.boundary.reset = true) : step s = .next (resetEvent s.nextBoundary) :=
  if_pos h

/-- The hardware interrupt is taken where the acceptance test holds (60_exceptions.md R324). -/
theorem step_of_interrupt {s : State} (hr : NoReset s) (hh : s.halted = false) (hirq : s.boundary.irq = true)
    (hI : pswI s.psw = true) (hd : s.dly = none) : step s = .next (interruptEntry .hardware s.nextBoundary) := by
  have hr : s.boundary.reset = false := hr
  have ha : acceptsInterrupt s = true := by simp [acceptsInterrupt, hirq, hI, hd]
  simp [step, boundaryStep, hr, hh, ha]

/-- Nothing is listed in memory after reset, so the boot ROM reads as R362 lists it. -/
theorem resetEvent_romIntact (s : State) : RomIntact (resetEvent s) := fun _ _ => rfl

end Sys2Proof.Safety

namespace Sys2Proof.Proofs

open Sys2Proof.Machine Sys2Proof.Safety

/-- Settles O7, by the four ways a step can end: each samples the boundary once, and what follows keeps the rest of the
input list. -/
theorem eachStepSamplesOneBoundary : Obligations.EachStepSamplesOneBoundary := by
  unfold Obligations.EachStepSamplesOneBoundary
  intro s t h
  rcases step_cases h with ⟨-, rfl⟩ | ⟨-, -, rfl⟩ | ⟨-, -, -, rfl⟩ | ⟨-, -, w, i, u, m, hfetch, -, hexec, hend⟩
  · exact ⟨rfl, rfl⟩
  · exact ⟨rfl, rfl⟩
  · exact ⟨interruptEntry_env .hardware s.nextBoundary, interruptEntry_cfg .hardware s.nextBoundary⟩
  · obtain ⟨-, -, -, -, hcfg, henv, -, -⟩ := fetch_advance hfetch
    obtain ⟨hcfg', henv'⟩ := exec_cfg_env hexec
    rcases hend with ⟨-, rfl⟩ | ⟨d, -, rfl⟩
    · exact ⟨henv'.trans henv, hcfg'.trans hcfg⟩
    · rw [completeTransfer_env, completeTransfer_cfg]
      exact ⟨henv'.trans henv, hcfg'.trans hcfg⟩

/-- Settles O8: the three outcomes of a boundary without reset, then I = 0 at reset and after entry, and SWI. -/
theorem hardwareInterruptAcceptance : Obligations.HardwareInterruptAcceptance := by
  unfold Obligations.HardwareInterruptAcceptance
  refine ⟨fun s hr => ⟨step_of_interrupt hr, fun hh hn => ?_, step_of_halted hr⟩, by decide, fun v s => ?_,
    fun s hd => execSwi_eq_next.2 ⟨hd, rfl⟩⟩
  · exact step_of_runsInstruction ⟨hr, hh, hn⟩
  · rw [interruptEntry_psw]
    exact pswI_entryPsw s.psw

/-- Settles O9: either vector's word is read from memory, so entry draws nothing; the PSW is the copy `entryPsw`. -/
theorem interruptEntryEffect : Obligations.InterruptEntryEffect := by
  unfold Obligations.InterruptEntryEffect
  intro v a s w hv hw
  obtain rfl : vectorAddr v = a := by
    rcases hv with ⟨rfl, rfl⟩ | ⟨rfl, rfl⟩ <;> rfl
  exact ⟨entryPsw s.psw, pswS_entryPsw s.psw, pswI_entryPsw s.psw, fun j => getLsbD_entryPsw_of_ne s.psw,
    interruptEntry_of_readWord hw⟩

/-- Settles O21: the reset event, whose fields other than the inputs, the parameters and the counter are constants. -/
theorem resetOverridesEverything : Obligations.ResetOverridesEverything := by
  unfold Obligations.ResetOverridesEverything
  exact fun s h => ⟨_, step_of_reset h, rfl, rfl, rfl, rfl, rfl, rfl, rfl, rfl, rfl, rfl, resetEvent_romIntact _⟩

end Sys2Proof.Proofs
end

section
/-! ## The boot ROM (70_reset_and_hazards.md R362, R363) -/

namespace Sys2Proof.Safety

open Sys2Proof.Machine

/-- The state in which the boot ROM hands over at physical 0x00100: the reset state but for CS:PC, DS, SS, R1 and the
two vector words. The fetch window still notes the three stores; R1's writes have left the other window (R363). -/
def bootHandover : State :=
  { State.reset with
    regs := State.reset.regs.set 1 0x0100
    normal := ⟨0x0100, 0x0000, 0x0000⟩
    ds := 0x0000
    ss := 0x0000
    mem := [(0, 0x00), (1, 0x01), (2, 0x00), (3, 0x01)]
    stored := [⟨0x00001, some 0x0100, 2⟩, ⟨0x00001, none, 3⟩, ⟨0x00000, none, 4⟩] }

/-- Ten steps from reset, the last of them the delay slot of the JML that hands over. -/
theorem run_reset_bootHandover : Sys2Proof.core.run 10 State.reset = .next bootHandover := rfl

/-- The boot ROM writes R1, and R0 with the value it had, and no other register. -/
theorem bootHandover_reg {r : RegNum} (h1 : 1 < r.toNat) (h15 : r.toNat < 15) :
    bootHandover.reg r = State.reset.reg r := by
  have hne : 1 ≠ r.toNat := Nat.ne_of_lt h1
  simp [State.reg, bootHandover, h15, hne]

end Sys2Proof.Safety

namespace Sys2Proof.Proofs

open Sys2Proof.Machine Sys2Proof.Safety

/-- Settles O22: the run evaluated after each of its first nine steps, and the state it hands over in. -/
theorem bootRomEffect : Obligations.BootRomEffect := by
  unfold Obligations.BootRomEffect
  refine ⟨⟨_, rfl, rfl, rfl⟩, ⟨_, rfl, rfl, rfl⟩, ⟨_, rfl, rfl, rfl⟩, ⟨_, rfl, rfl, rfl⟩, ⟨_, rfl, rfl, rfl⟩,
    ⟨_, rfl, rfl, rfl⟩, ⟨_, rfl, rfl, rfl⟩, ⟨_, rfl, rfl, rfl⟩, ⟨_, rfl, rfl, rfl⟩,
    bootHandover, run_reset_bootHandover, ?_⟩
  exact ⟨rfl, rfl, rfl, rfl, rfl, rfl, rfl, rfl, rfl, rfl, rfl, fun r => bootHandover_reg, rfl, rfl, rfl, rfl, rfl⟩

end Sys2Proof.Proofs
end
